-- ==== Sys2Proof/Word.lean ====
section
/-! DEFINITION. The widths of CORE's ports and registers (spec 00_scope.md R5, R6): every one of them is a
bit pattern the spec numbers from bit 0, so each is a bit vector. -/

namespace Sys2Proof

/-- W = 32: an operand or result field, and each of the engine's x, y and z registers (R5, R26). -/
abbrev Word := BitVec 32

/-- W_WIDE = 64: the rounding unit and the gain product (R5, R72). -/
abbrev Wide := BitVec 64

/-- IN_W = 16: a sample of PHASE16, PHASE24, MAG and MAGW (R5, R110). -/
abbrev Sample := BitVec 16

/-- THETA_W = 24: SINCOS24's angle, unsigned (R5, R140). -/
abbrev Angle := BitVec 24

/-- The operation code field (R50, R52). -/
abbrev Opcode := BitVec 4

end Sys2Proof
end

