-- ==== Sys2Proof/Syntax.lean ====
section
/-! DEFINITION. The request word (R50) and the operations it names (R52): one constructor for each row of
spec/opcode_table.json.  Operands stand at the width the operation reads (R53), so two words that differ
only in ignored bits name the same term (R56). -/

namespace Sys2Proof

/-- A request `{op, c, b, a}`, each field on a port of its own (R50). -/
structure Request where
  op : Opcode
  c : Word
  b : Word
  a : Word
deriving DecidableEq, Repr

/-- The nine operations of R52 and the three rows the opcode table gives the reserved codes.
The table's rows for 0xA to 0xB and 0xC to 0xF each cover several codes; the code itself is their operand, since
the response echoes it (R151). -/
inductive Instr where
  /-- op 0x0, R89: x0 = a, y0 = b, z0 = c. -/
  | rot (x0 y0 z0 : Word)
  /-- op 0x1, R90: x0 = a, y0 = b, z0 = c. -/
  | vec (x0 y0 z0 : Word)
  /-- op 0x2, R103: x = a, y = b. -/
  | qnorm (x y : Word)
  /-- op 0x3, R73: value = {b, a}, bits = c. -/
  | rnd (value : Wide) (bits : Word)
  /-- op 0x4, R119: x = a[15:0], y = b[15:0]. -/
  | mag (x y : Sample)
  /-- op 0x5, R120: x = a[15:0], y = b[15:0]. -/
  | magw (x y : Sample)
  /-- op 0x6, R113: x = a[15:0], y = b[15:0]. -/
  | phase16 (x y : Sample)
  /-- op 0x7, R115: x = a[15:0], y = b[15:0]. -/
  | phase24 (x y : Sample)
  /-- op 0x8, R144: theta = a[23:0]. -/
  | sincos24 (theta : Angle)
  /-- op 0x9, R150. -/
  | reserved9
  /-- op 0xA or 0xB, R150. -/
  | reservedAB (op : Opcode)
  /-- op 0xC to 0xF, R150. -/
  | reservedCF (op : Opcode)
deriving DecidableEq, Repr

/-- The operation code of a request for `i` (R52), which its response echoes (R51). -/
def Instr.op : Instr → Opcode
  | .rot _ _ _ => 0x0#4
  | .vec _ _ _ => 0x1#4
  | .qnorm _ _ => 0x2#4
  | .rnd _ _ => 0x3#4
  | .mag _ _ => 0x4#4
  | .magw _ _ => 0x5#4
  | .phase16 _ _ => 0x6#4
  | .phase24 _ _ => 0x7#4
  | .sincos24 _ => 0x8#4
  | .reserved9 => 0x9#4
  | .reservedAB op => op
  | .reservedCF op => op

end Sys2Proof
end

