-- ==== Sys2Proof/WellFormed.lean ====
section
/-! DEFINITION. The terms of `Instr` that stand for a request word.  Every operand fills its field, so the only
checks are that a reserved row carries one of its own codes (opcode table rows 0xA/0xE and 0xC/0xC). -/

namespace Sys2Proof

/-- `i` is what some request word names (R52, R58).  An RND whose `bits` is outside 1 to 63 IS well-formed: it is a
request like any other, answered by an error response (R56, R73). -/
def Instr.wf : Instr → Bool
  | .reservedAB op => op == 0xA#4 || op == 0xB#4
  | .reservedCF op => decide (0xC ≤ op.toNat)
  | .rot _ _ _ | .vec _ _ _ | .qnorm _ _ | .rnd _ _ | .mag _ _ | .magw _ _ | .phase16 _ _ | .phase24 _ _ | .sincos24 _ | .reserved9 => true

end Sys2Proof
end

