-- ==== Sys2Proof/Decode.lean ====
section
/-! DEFINITION. The 100-bit request word (R50), its decoder (R53, R58) and an encoder written from the same tables (R52,
R53, with the zero fill and sign extension of R59).  Decoding is total and refuses no word: R58 gives every one of the
2^100 words an operation, a reserved code included. -/

namespace Sys2Proof

/-- The request word `{op, c, b, a}`: op is bits 99..96, c is 95..64, b is 63..32 and a is 31..0 (R50). -/
def Request.toWord (r : Request) : BitVec 100 :=
  r.op ++ r.c ++ r.b ++ r.a

/-- The fields of a request word (R50). -/
def Request.ofWord (w : BitVec 100) : Request where
  op := w.extractLsb' 96 4
  c := w.extractLsb' 64 32
  b := w.extractLsb' 32 32
  a := w.extractLsb' 0 32

/-- v[15:0] of an operand field (R53). -/
def lowSample (v : Word) : Sample :=
  v.extractLsb' 0 16

/-- v[23:0] of an operand field (R53). -/
def lowAngle (v : Word) : Angle :=
  v.extractLsb' 0 24

/-- The operation a request names, with its operands assembled by R53. -/
def decodeRequest (r : Request) : Instr :=
  match r.op.toNat with
  | 0x0 => .rot r.a r.b r.c
  | 0x1 => .vec r.a r.b r.c
  | 0x2 => .qnorm r.a r.b
  | 0x3 => .rnd (r.b ++ r.a) r.c
  | 0x4 => .mag (lowSample r.a) (lowSample r.b)
  | 0x5 => .magw (lowSample r.a) (lowSample r.b)
  | 0x6 => .phase16 (lowSample r.a) (lowSample r.b)
  | 0x7 => .phase24 (lowSample r.a) (lowSample r.b)
  | 0x8 => .sincos24 (lowAngle r.a)
  | 0x9 => .reserved9
  | 0xA | 0xB => .reservedAB r.op
  | _ => .reservedCF r.op

/-- Decoding, total on all 2^100 request words (R58). -/
def decode (w : BitVec 100) : Instr :=
  decodeRequest (Request.ofWord w)

/-- The request for `i` as R59 writes it: a field the operation does not name is 0, a 16-bit sample is
sign-extended to its field, and theta is written zero-extended. -/
def encodeRequest (i : Instr) : Request :=
  match i with
  | .rot x0 y0 z0 => ⟨0x0#4, z0, y0, x0⟩
  | .vec x0 y0 z0 => ⟨0x1#4, z0, y0, x0⟩
  | .qnorm x y => ⟨0x2#4, 0#32, y, x⟩
  | .rnd value bits => ⟨0x3#4, bits, value.extractLsb' 32 32, value.extractLsb' 0 32⟩
  | .mag x y => ⟨0x4#4, 0#32, y.signExtend 32, x.signExtend 32⟩
  | .magw x y => ⟨0x5#4, 0#32, y.signExtend 32, x.signExtend 32⟩
  | .phase16 x y => ⟨0x6#4, 0#32, y.signExtend 32, x.signExtend 32⟩
  | .phase24 x y => ⟨0x7#4, 0#32, y.signExtend 32, x.signExtend 32⟩
  | .sincos24 theta => ⟨0x8#4, 0#32, 0#32, theta.setWidth 32⟩
  | .reserved9 => ⟨0x9#4, 0#32, 0#32, 0#32⟩
  | .reservedAB op => ⟨op, 0#32, 0#32, 0#32⟩
  | .reservedCF op => ⟨op, 0#32, 0#32, 0#32⟩

/-- The request word of `i`. -/
def encode (i : Instr) : BitVec 100 :=
  (encodeRequest i).toWord

/-- The bits of a request word that its operation reads: op, and the operand bits R53 does not mark ignored (R56). -/
def readMask (op : Opcode) : BitVec 100 :=
  match op.toNat with
  | 0x0 | 0x1 | 0x3 => 0xFFFFFFFFFFFFFFFFFFFFFFFFF#100
  | 0x2 => 0xF00000000FFFFFFFFFFFFFFFF#100
  | 0x4 | 0x5 | 0x6 | 0x7 => 0xF000000000000FFFF0000FFFF#100
  | 0x8 => 0xF000000000000000000FFFFFF#100
  | _ => 0xF000000000000000000000000#100

/-- One row of spec/opcode_table.json: the words `w` with `w &&& mask = pattern`. -/
structure OpcodeRow where
  mnemonic : String
  pattern : BitVec 100
  mask : BitVec 100
deriving DecidableEq, Repr

/-- The twelve rows of spec/opcode_table.json, in its order (R52). -/
def opcodeTable : List OpcodeRow :=
  [⟨"ROT", 0x0000000000000000000000000#100, 0xF000000000000000000000000#100⟩,
   ⟨"VEC", 0x1000000000000000000000000#100, 0xF000000000000000000000000#100⟩,
   ⟨"QNORM", 0x2000000000000000000000000#100, 0xF000000000000000000000000#100⟩,
   ⟨"RND", 0x3000000000000000000000000#100, 0xF000000000000000000000000#100⟩,
   ⟨"MAG", 0x4000000000000000000000000#100, 0xF000000000000000000000000#100⟩,
   ⟨"MAGW", 0x5000000000000000000000000#100, 0xF000000000000000000000000#100⟩,
   ⟨"PHASE16", 0x6000000000000000000000000#100, 0xF000000000000000000000000#100⟩,
   ⟨"PHASE24", 0x7000000000000000000000000#100, 0xF000000000000000000000000#100⟩,
   ⟨"SINCOS24", 0x8000000000000000000000000#100, 0xF000000000000000000000000#100⟩,
   ⟨"RESERVED", 0x9000000000000000000000000#100, 0xF000000000000000000000000#100⟩,
   ⟨"RESERVED", 0xA000000000000000000000000#100, 0xE000000000000000000000000#100⟩,
   ⟨"RESERVED", 0xC000000000000000000000000#100, 0xC000000000000000000000000#100⟩]

/-- The word lies in the row. -/
def OpcodeRow.covers (r : OpcodeRow) (w : BitVec 100) : Bool :=
  w &&& r.mask == r.pattern

/-- The place in `opcodeTable` of the row that `i` is the constructor of. -/
def Instr.row : Instr → Nat
  | .rot _ _ _ => 0
  | .vec _ _ _ => 1
  | .qnorm _ _ => 2
  | .rnd _ _ => 3
  | .mag _ _ => 4
  | .magw _ _ => 5
  | .phase16 _ _ => 6
  | .phase24 _ _ => 7
  | .sincos24 _ => 8
  | .reserved9 => 9
  | .reservedAB _ => 10
  | .reservedCF _ => 11

/-- The host's numbering: `w`'s lowest `nbits` bits are the instruction's, every higher bit is 0.  CORE has no bytes (R41),
and its one word is bit 0 first already (R50); a number with a bit above bit 99 is no request word. -/
def decodeTableWord (nbits w : Nat) : Option Instr :=
  let v := w % 2 ^ nbits
  if v < 2 ^ 100 then some (decode (BitVec.ofNat 100 v)) else none

end Sys2Proof
end

