-- ==== Sys2Proof/Machine/Constants.lean ====
section
/-! DEFINITION. CORE's wired constants: the angle table and the gain-inverse constant (R21 to R25).  No request reads them as
data and nothing writes them, so they are no part of State. -/

namespace Sys2Proof.Machine

/-- The number of iterations, coupled to the table's length (R5, R21). -/
def iterations : Nat := 24

/-- table[0] to table[23] (R22, the hex column). -/
def angleTable : List Word :=
  [0x400000#32, 0x25C80A#32, 0x13F671#32, 0x0A2224#32, 0x05161B#32, 0x028BB0#32,
   0x0145EC#32, 0x00A2F9#32, 0x00517D#32, 0x0028BE#32, 0x00145F#32, 0x000A30#32,
   0x000518#32, 0x00028C#32, 0x000146#32, 0x0000A3#32, 0x000051#32, 0x000029#32,
   0x000014#32, 0x00000A#32, 0x000005#32, 0x000003#32, 0x000001#32, 0x000001#32]

/-- table[i], for i = 0 to 23 (R22).  No iteration asks for another entry (R80). -/
def angleEntry (i : Nat) : Word :=
  angleTable.getD i 0#32

/-- G = 0x9B75 = 39797 (R24). -/
def gain : Nat := 0x9B75

end Sys2Proof.Machine
end

