-- ==== Sys2Proof/Config.lean ====
section
/-! DEFINITION. What one build of CORE fixes, and the one value the spec leaves open. -/

namespace Sys2Proof.Config

/-- LATENCY: clock edges from a request's sample to its response's sample, and so the number of slots.
R5, R178: the value is 27, and no rule but R178 depends on it. -/
def latency : Nat := 27

theorem latency_pos : 0 < latency := by decide

/-- What the response data ports carry while `out_valid` = 0: "the other output ports carry unspecified values" (R33, R34, U6).
A FREE VALUE (assumption 1): no body, so nothing can be proved of it.
It is applied to the count of clock edges, so two cycles need not show the same word. -/
opaque idleOutput : Nat → BitVec 101

end Sys2Proof.Config
end

