-- ==== Sys2Proof/Machine/State.lean ====
section
/-! DEFINITION. CORE's state as plain data: the pipeline slots (R20), whether an edge with `rst` = 1 has been seen since
power-up (R174), and what the host will drive on the input ports at the coming edges (R176, R59).  CORE has no register file, no
program counter, no memory, no flags and no control registers (R30, R31, R40). -/

namespace Sys2Proof.Machine

/-- A 101-bit response `{err, op, r2, r1, r0}`, each field on a port of its own (R51). -/
structure Response where
  err : Bool
  op : Opcode
  r2 : Word
  r1 : Word
  r0 : Word
deriving DecidableEq, Repr

/-- One position of the pipeline: `Empty`, or `Full` with the response it will present (R20). -/
inductive Slot where
  | empty
  | full (rsp : Response)
deriving DecidableEq, Repr

/-- The values of the input ports at one rising edge: `rst`, `in_valid` and the request word (R50, R176).
The request fields hold something at every edge; they matter only when `in_valid` = 1 and `rst` = 0. -/
structure Pins where
  rst : Bool
  inValid : Bool
  req : Request
deriving DecidableEq, Repr

/-- The IDLE line: `in_valid` = 0 and `rst` = 0, so no request is sampled (R60). -/
def Pins.idle : Pins where
  rst := false
  inValid := false
  req := ⟨0#4, 0#32, 0#32, 0#32⟩

/-- The RESET line: `rst` = 1 (R60). -/
def Pins.reset : Pins where
  rst := true
  inValid := false
  req := ⟨0#4, 0#32, 0#32, 0#32⟩

/-- A line that issues the request `r` (R59). -/
def Pins.request (r : Request) : Pins where
  rst := false
  inValid := true
  req := r

/-- The causes of an error response (R150).  R151: "A Lean model treats a response with err = 1 as a **fault** of that
request."  It is a fault of the REQUEST and travels in its response; the machine goes on (R153), so `step` never
stops with one. -/
inductive Fault where
  /-- Code 1, raised by every request with op 0x9 to 0xF (R55, R150).  Safe: nothing follows about a result. -/
  | reservedOp
  /-- Code 2, raised by RND when `bits` is 0 or at least 64 (R71, R73, R150).  Safe: nothing follows about a result. -/
  | rndShiftRange
deriving DecidableEq, Repr

/-- The cause's code, "carried only in this spec's naming" (R150). -/
def Fault.code : Fault → Nat
  | .reservedOp => 1
  | .rndShiftRange => 2

/-- Why a step has no next state. -/
inductive Refusal where
  /-- An instruction whose meaning is not written.  Safe; no arm answers it. -/
  | notModelled (mnemonic : String)
  /-- Raised by `edge` at an edge with `rst` = 0 before the first edge with `rst` = 1: "A run that begins at power-up without a
  reset is refused: its outputs are draws" (R174; R34, U5, D30).  Safe: nothing is provable of such a run. -/
  | noResetSincePowerUp
deriving DecidableEq, Repr

/-- The state of CORE between two rising edges, and the inputs it is about to read. -/
structure State where
  /-- `slot[0]` to `slot[LATENCY-1]` (R20). -/
  slots : Vector Slot Config.latency
  /-- An edge with `rst` = 1 has occurred since power-up (R174).  Never observable at a port. -/
  resetSeen : Bool
  /-- The number of the last rising edge, counted as the programs of 95_test_vectors.md count (R45, D27).
  The model's own field: no port shows it.  It numbers the responses a host samples and draws the free value
  `Config.idleOutput`. -/
  edgeCount : Nat
  /-- What the host drives at the coming edges, the next edge first (R59: "a list of lines, one per clock edge"). -/
  drive : List Pins
deriving DecidableEq, Repr

/-- The state just after a reset edge: every slot `Empty` (R34, R171).  The reset edge is numbered 0 (95_test_vectors.md, Part
3) and nothing is driven yet. -/
def State.reset : State where
  slots := Vector.replicate Config.latency .empty
  resetSeen := true
  edgeCount := 0
  drive := []

/-- The state at power-up before any reset: the slots hold whatever `draw` says, "`Empty` or `Full` with any word" (R34).
A claim about power-up is a claim for every `draw`. -/
def State.powerUp (draw : Vector Slot Config.latency) : State where
  slots := draw
  resetSeen := false
  edgeCount := 0
  drive := []

end Sys2Proof.Machine
end

