-- ==== Sys2Proof/Machine/Ops.lean ====
section
/-! DEFINITION. The operations every meaning is made of: building a normal response, RAISING AN ERROR (the one exception-like
event CORE has: R150 to R154 give it no saved state, no handler and no return), letting one clock edge pass, and
what the ports show. -/

namespace Sys2Proof.Machine

/-- `respond(r0, r1, r2)`: a normal response, with the request's op echoed (R7, R51). -/
def respond (op : Opcode) (r0 r1 r2 : Word) : Response where
  err := false
  op := op
  r2 := r2
  r1 := r1
  r0 := r0

/-- `raise Err(reason)`: the error response, err = 1, op echoed, r0 = r1 = r2 = 0 (R151).
The word has no cause field (R150), so `cause` says why and changes nothing. -/
def raiseErr (_cause : Fault) (op : Opcode) : Response where
  err := true
  op := op
  r2 := 0#32
  r1 := 0#32
  r0 := 0#32

/-- The cause of an error response follows from its op: 0x9 to 0xF means RESERVED_OP, 0x3 means RND_SHIFT_RANGE (R151).
A word with err = 1 and another op, which no request's response is and only a power-up draw or an idle word can be, has no cause
in R151; answering `none` for it is a DESIGN CHOICE (assumption 15, safe: no cause is claimed).  So `none` does not say err = 0. -/
def Response.fault (rsp : Response) : Option Fault :=
  if rsp.err then
    if 0x9 ≤ rsp.op.toNat then some .reservedOp
    else if rsp.op = 0x3#4 then some .rndShiftRange
    else none
  else none

/-- The response word `{err, op, r2, r1, r0}`: err is bit 100, op 99..96, r2 95..64, r1 63..32, r0 31..0 (R51). -/
def Response.toWord (rsp : Response) : BitVec 101 :=
  BitVec.ofBool rsp.err ++ rsp.op ++ rsp.r2 ++ rsp.r1 ++ rsp.r0

/-- The fields of a response word (R51). -/
def Response.ofWord (w : BitVec 101) : Response where
  err := w.getLsbD 100
  op := w.extractLsb' 96 4
  r2 := w.extractLsb' 64 32
  r1 := w.extractLsb' 32 32
  r0 := w.extractLsb' 0 32

/-- A rising edge with `rst` = 0: every slot advances by one and `entering` goes into `slot[0]` (R177). -/
def State.clock (entering : Slot) (s : State) : State :=
  { s with
    slots := Vector.ofFn fun k => if k.val = 0 then entering else s.slots[k.val - 1]'(by have := k.isLt; omega)
    edgeCount := s.edgeCount + 1 }

/-- A rising edge with `rst` = 1: every slot becomes `Empty`, whatever it held (R171). -/
def State.clear (s : State) : State :=
  { s with
    slots := Vector.replicate Config.latency .empty
    resetSeen := true
    edgeCount := s.edgeCount + 1 }

/-- A request is accepted: its response enters `slot[0]` as the pipeline advances (R20, R177). -/
def accept (rsp : Response) (s : State) : Host.Outcome State Fault Refusal :=
  .next (s.clock (.full rsp))

/-- `slot[LATENCY-1]`, the slot the response ports show (R33). -/
def State.lastSlot (s : State) : Slot :=
  s.slots[Config.latency - 1]'(Nat.sub_lt Config.latency_pos Nat.one_pos)

/-- `out_valid` (R33). -/
def State.outValid (s : State) : Bool :=
  match s.lastSlot with
  | .empty => false
  | .full _ => true

/-- `out_err`, `out_op`, `out_r2`, `out_r1` and `out_r0` (R33): the last slot's response, or, while `out_valid` = 0,
unspecified values (the free value of assumption 1). -/
def State.outPorts (s : State) : Response :=
  match s.lastSlot with
  | .empty => Response.ofWord (Config.idleOutput s.edgeCount)
  | .full rsp => rsp

/-- `in_ready` = NOT `rst`, a combinational function of the inputs (R172). -/
def Pins.inReady (p : Pins) : Bool :=
  !p.rst

/-- The edge accepts a request: `in_valid` = 1 and `in_ready` = 1 (R50, R172). -/
def Pins.accepts (p : Pins) : Bool :=
  p.inValid && p.inReady

end Sys2Proof.Machine
end

