-- ==== Sys2Proof/Machine/Engine.lean ====
section
/-! DEFINITION. The rotation/vectoring engine and the raw operations ROT and VEC (41_engine.md). -/

namespace Sys2Proof.Machine

/-- The engine's mode (R28). -/
inductive Mode where
  | rotation
  | vectoring
deriving DecidableEq, Repr

/-- ROTATION = 0, VECTOR = 1 (R28). -/
def Mode.bit : Mode → BitVec 1
  | .rotation => 0#1
  | .vectoring => 1#1

/-- A vector triple: horizontal component, vertical component, angle accumulator, 32 bits each (R26). -/
structure Triple where
  x : Word
  y : Word
  z : Word
deriving DecidableEq, Repr

/-- d_i: in ROTATION mode 1 iff z_i < 0, in VECTOR mode 1 iff y_i ≥ 0 (R81). -/
def decision (m : Mode) (t : Triple) : Bool :=
  match m with
  | .rotation => decide (t.z.toInt < 0)
  | .vectoring => decide (0 ≤ t.y.toInt)

/-- Iteration i: stage i+1 from stage i alone (R27, R82, R83).  Every right side reads the pre-update triple `t`
(R84), the shifts are arithmetic (R87), and the sums wrap modulo 2^32 (R86). -/
def iterate (m : Mode) (i : Nat) (t : Triple) : Triple :=
  if decision m t then
    ⟨t.x + t.y.sshiftRight i, t.y - t.x.sshiftRight i, t.z + angleEntry i⟩
  else
    ⟨t.x - t.y.sshiftRight i, t.y + t.x.sshiftRight i, t.z - angleEntry i⟩

/-- (x_n, y_n, z_n): the triple of stage n, when stage 0 holds `t` (R27, R80). -/
def stage (m : Mode) (t : Triple) : Nat → Triple
  | 0 => t
  | n + 1 => iterate m n (stage m t n)

/-- `CORDIC(x0, y0, z0, mode)`: exactly 24 iterations, with no early exit (R80, R85). -/
def cordic (m : Mode) (t : Triple) : Triple :=
  stage m t iterations

/-- The response that carries a whole triple (R54). -/
def respondTriple (op : Opcode) (t : Triple) : Response :=
  respond op t.x t.y t.z

/-- ROT's response (R89). -/
def rotResponse (x0 y0 z0 : Word) : Response :=
  respondTriple 0x0#4 (cordic .rotation ⟨x0, y0, z0⟩)

/-- VEC's response (R90). -/
def vecResponse (x0 y0 z0 : Word) : Response :=
  respondTriple 0x1#4 (cordic .vectoring ⟨x0, y0, z0⟩)

/-- ROT (op 0x0, R89). -/
def execRot (x0 y0 z0 : Word) (s : State) : Host.Outcome State Fault Refusal :=
  accept (rotResponse x0 y0 z0) s

/-- VEC (op 0x1, R90). -/
def execVec (x0 y0 z0 : Word) (s : State) : Host.Outcome State Fault Refusal :=
  accept (vecResponse x0 y0 z0) s

end Sys2Proof.Machine
end

