-- ==== Sys2Proof/Machine/Flags.lean ====
section
/-! DEFINITION. CORE has no flags and no status register; "The only status bit is a response's err bit" (R31).  Its one
computed condition is RND's shift range; a reserved code raises it always (R150). -/

namespace Sys2Proof.Machine

/-- 1 ≤ bits ≤ 63, with bits = zext_32(c) and no upper bit ignored (R71, R73). -/
def rndShiftLegal (bits : Word) : Bool :=
  decide (1 ≤ bits.toNat) && decide (bits.toNat ≤ 63)

end Sys2Proof.Machine
end

