-- ==== Sys2Proof/Machine/Operands.lean ====
section
/-! DEFINITION. How an operand or result pattern is read and cut (R7, R51, R53). -/

namespace Sys2Proof.Machine

/-- sext_16: a 16-bit sample as a 32-bit signed value (R53, R110). -/
def sextSample (v : Sample) : Word :=
  v.signExtend 32

/-- sext_64 of a 32-bit value: "A narrower signed value is sign-extended to 64 bits first" (R72). -/
def sextWide (v : Word) : Wide :=
  v.signExtend 64

/-- v[31:0] of a 64-bit value (R54). -/
def lowWord (v : Wide) : Word :=
  v.extractLsb' 0 32

/-- v[63:32] of a 64-bit value (R54). -/
def highWord (v : Wide) : Word :=
  v.extractLsb' 32 32

/-- abs(v) on a 32-bit register (R7, R118). -/
def absWord (v : Word) : Word :=
  if v.toInt < 0 then -v else v

/-- Negate `v` when the bit says so (R142). -/
def negateIf (neg : Bool) (v : Word) : Word :=
  if neg then -v else v

end Sys2Proof.Machine
end

