-- ==== Sys2Proof/Machine/Rounding.lean ====
section
/-! DEFINITION. The rounding primitive and the operation RND (40_rounding.md). -/

namespace Sys2Proof.Machine

/-- `round(value, bits)` = asr(value, bits) + value[bits-1] on 64-bit values (R70, R72).
Called with 1 ≤ bits ≤ 63 only (R71). -/
def roundShift (value : Wide) (bits : Nat) : Wide :=
  value.sshiftRight bits + (if value.getLsbD (bits - 1) then 1#64 else 0#64)

/-- RND's response (R73). -/
def rndResponse (value : Wide) (bits : Word) : Response :=
  if rndShiftLegal bits then
    respond 0x3#4 (lowWord (roundShift value bits.toNat)) (highWord (roundShift value bits.toNat)) 0#32
  else raiseErr .rndShiftRange 0x3#4

/-- RND (op 0x3, R73). -/
def execRnd (value : Wide) (bits : Word) (s : State) : Host.Outcome State Fault Refusal :=
  accept (rndResponse value bits) s

end Sys2Proof.Machine
end

