-- ==== Sys2Proof/Machine/Magnitude.lean ====
section
/-! DEFINITION. The gain post-processors MAG and MAGW (43_postprocess.md R118 to R120). -/

namespace Sys2Proof.Machine

/-- The engine's start: each sample's absolute value, and z0 = 0 (R118; no quadrant fold, R104). -/
def magStart (x y : Sample) : Triple :=
  ⟨absWord (sextSample x), absWord (sextSample y), 0#32⟩

/-- P = x24 * G on 64 bits (R118). -/
def gainProduct (x24 : Word) : Wide :=
  sextWide x24 * BitVec.ofNat 64 gain

/-- The wide product of MAG_PATH (R118). -/
def magWide (x y : Sample) : Wide :=
  gainProduct (cordic .vectoring (magStart x y)).x

/-- The narrow form's response to a product: r0 = round(P, 16) (R119). -/
def respondNarrow (op : Opcode) (p : Wide) : Response :=
  respond op (lowWord (roundShift p 16)) 0#32 0#32

/-- The wide form's response to a product: {r1, r0} = P (R120). -/
def respondWide (op : Opcode) (p : Wide) : Response :=
  respond op (lowWord p) (highWord p) 0#32

/-- MAG's response (R119). -/
def magResponse (x y : Sample) : Response :=
  respondNarrow 0x4#4 (magWide x y)

/-- MAGW's response (R120). -/
def magwResponse (x y : Sample) : Response :=
  respondWide 0x5#4 (magWide x y)

/-- MAG (op 0x4, R119). -/
def execMag (x y : Sample) (s : State) : Host.Outcome State Fault Refusal :=
  accept (magResponse x y) s

/-- MAGW (op 0x5, R120). -/
def execMagw (x y : Sample) (s : State) : Host.Outcome State Fault Refusal :=
  accept (magwResponse x y) s

end Sys2Proof.Machine
end

