-- ==== Sys2Proof/Machine/Normalizer.lean ====
section
/-! DEFINITION. The quadrant normalizer and the operation QNORM (42_normalizer.md). -/

namespace Sys2Proof.Machine

/-- The quadrant index q, 2 bits: the first condition that holds, in the order written (R100). -/
def quadrant (x y : Word) : BitVec 2 :=
  if 0 < x.toInt ∧ 0 ≤ y.toInt then 0#2
  else if x.toInt ≤ 0 ∧ 0 < y.toInt then 1#2
  else if x.toInt < 0 ∧ y.toInt ≤ 0 then 2#2
  else 3#2

/-- A folded vector and the quadrant folded away (R102). -/
structure Folded where
  x : Word
  y : Word
  q : BitVec 2
deriving DecidableEq, Repr

/-- The fold of quadrant `q`; each negation wraps, so -(-2^31) = -2^31 (R101). -/
def foldBy (q : BitVec 2) (x y : Word) : Word × Word :=
  match q.toNat with
  | 0 => (x, y)
  | 1 => (y, -x)
  | 2 => (-x, -y)
  | _ => (-y, x)

/-- `QN(x, y)` (R100 to R102). -/
def normalize (x y : Word) : Folded where
  x := (foldBy (quadrant x y) x y).1
  y := (foldBy (quadrant x y) x y).2
  q := quadrant x y

/-- The response of a fold: r0 = x', r1 = y', r2 = q (R54, R103). -/
def respondFolded (op : Opcode) (f : Folded) : Response :=
  respond op f.x f.y (f.q.setWidth 32)

/-- QNORM's response (R103). -/
def qnormResponse (x y : Word) : Response :=
  respondFolded 0x2#4 (normalize x y)

/-- QNORM (op 0x2, R103). -/
def execQnorm (x y : Word) (s : State) : Host.Outcome State Fault Refusal :=
  accept (qnormResponse x y) s

end Sys2Proof.Machine
end

