-- ==== Sys2Proof/Machine/Phase.lean ====
section
/-! DEFINITION. The arctangent post-processors PHASE16 and PHASE24 (43_postprocess.md R110 to R116). -/

namespace Sys2Proof.Machine

/-- The axis special cases on the 16-bit samples, the first match winning, with the results for 0, 90, 180 and 270
degrees; (0, 0) gives 0 (R111). -/
def axisPhase (deg0 deg90 deg180 deg270 : Word) (x y : Sample) : Option Word :=
  if x = 0#16 ∧ y = 0#16 then some 0#32
  else if x = 0#16 then some (if 0 < y.toInt then deg90 else deg270)
  else if y = 0#16 then some (if 0 < x.toInt then deg0 else deg180)
  else none

/-- PHASE16's axis results (R111). -/
def axisPhase16 (x y : Sample) : Option Word :=
  axisPhase 0#32 16384#32 32768#32 49152#32 x y

/-- PHASE24's axis results (R111). -/
def axisPhase24 (x y : Sample) : Option Word :=
  axisPhase 0x000000#32 0x400000#32 0x800000#32 0xC00000#32 x y

/-- The folded samples, as 32-bit values with no pre-scaling (R110, R121). -/
def foldedSamples (x y : Sample) : Folded :=
  normalize (sextSample x) (sextSample y)

/-- The engine's z_24 on a folded vector, in VECTOR mode from z0 = 0 (R112, R115). -/
def vectorAngle (f : Folded) : Word :=
  (cordic .vectoring ⟨f.x, f.y, 0#32⟩).z

/-- PHASE16's composition `(q << 14) | (w & 0x3FFF)` with w = round(sext_64(z24), 9), low 16 bits (R112, R113). -/
def composePhase16 (q : BitVec 2) (z24 : Word) : Word :=
  lowWord (((q.setWidth 64 <<< 14) ||| (roundShift (sextWide z24) 9 &&& 0x3FFF#64)) &&& 0xFFFF#64)

/-- PHASE24's composition `((q << 22) + w) & 0xFFFFFF` with w = round(sext_64(z24), 1) (R115). -/
def composePhase24 (q : BitVec 2) (z24 : Word) : Word :=
  lowWord (((q.setWidth 64 <<< 22) + roundShift (sextWide z24) 1) &&& 0xFFFFFF#64)

/-- The phase PHASE16 returns (R113). -/
def phase16Value (x y : Sample) : Word :=
  match axisPhase16 x y with
  | some p => p
  | none => composePhase16 (foldedSamples x y).q (vectorAngle (foldedSamples x y))

/-- The phase PHASE24 returns (R115). -/
def phase24Value (x y : Sample) : Word :=
  match axisPhase24 x y with
  | some p => p
  | none => composePhase24 (foldedSamples x y).q (vectorAngle (foldedSamples x y))

/-- PHASE16's response (R113). -/
def phase16Response (x y : Sample) : Response :=
  respond 0x6#4 (phase16Value x y) 0#32 0#32

/-- PHASE24's response (R115). -/
def phase24Response (x y : Sample) : Response :=
  respond 0x7#4 (phase24Value x y) 0#32 0#32

/-- PHASE16 (op 0x6, R113). -/
def execPhase16 (x y : Sample) (s : State) : Host.Outcome State Fault Refusal :=
  accept (phase16Response x y) s

/-- PHASE24 (op 0x7, R115). -/
def execPhase24 (x y : Sample) (s : State) : Host.Outcome State Fault Refusal :=
  accept (phase24Response x y) s

end Sys2Proof.Machine
end

