-- ==== Sys2Proof/Machine/Reserved.lean ====
section
/-! DEFINITION. The reserved operation codes: "accepted like any other request", each answered by an error response with
its op echoed (30_encoding.md R55, 60_exceptions.md R150, R151). -/

namespace Sys2Proof.Machine

/-- The response of a reserved code (R55, R151). -/
def reservedResponse (op : Opcode) : Response :=
  raiseErr .reservedOp op

/-- op 0x9 (R150). -/
def execReserved9 (s : State) : Host.Outcome State Fault Refusal :=
  accept (reservedResponse 0x9#4) s

/-- op 0xA and 0xB (R150). -/
def execReservedAB (op : Opcode) (s : State) : Host.Outcome State Fault Refusal :=
  accept (reservedResponse op) s

/-- op 0xC to 0xF (R150). -/
def execReservedCF (op : Opcode) (s : State) : Host.Outcome State Fault Refusal :=
  accept (reservedResponse op) s

end Sys2Proof.Machine
end

