-- ==== Sys2Proof/Machine/SinCos.lean ====
section
/-! DEFINITION. The sine/cosine synthesizer SINCOS24 (44_sincos.md). -/

namespace Sys2Proof.Machine

/-- f: theta's low 22 bits, mirrored as 0x3FFFFF - lo exactly when theta[22] = 1 (R141, conflict C1). -/
def sinCosFold (theta : Angle) : BitVec 22 :=
  if theta.getLsbD 22 then 0x3FFFFF#22 - theta.extractLsb' 0 22 else theta.extractLsb' 0 22

/-- Negate cos exactly when theta[23] XOR theta[22] = 1 (R142). -/
def negCos (theta : Angle) : Bool :=
  theta.getLsbD 23 ^^ theta.getLsbD 22

/-- Negate sin exactly when theta[23] = 1 (R142). -/
def negSin (theta : Angle) : Bool :=
  theta.getLsbD 23

/-- The engine's start: x0 = G, y0 = 0, z0 = f << 1 (R143). -/
def sinCosStart (theta : Angle) : Triple :=
  ⟨BitVec.ofNat 32 gain, 0#32, (sinCosFold theta).setWidth 32 <<< 1⟩

/-- The response to a converged triple: r0 = cos from x, r1 = sin from y, each negated when its bit says so (R144). -/
def respondSinCos (op : Opcode) (nc ns : Bool) (t : Triple) : Response :=
  respond op (negateIf nc t.x) (negateIf ns t.y) 0#32

/-- SINCOS24's response (R144). -/
def sincos24Response (theta : Angle) : Response :=
  respondSinCos 0x8#4 (negCos theta) (negSin theta) (cordic .rotation (sinCosStart theta))

/-- SINCOS24 (op 0x8, R144). -/
def execSincos24 (theta : Angle) (s : State) : Host.Outcome State Fault Refusal :=
  accept (sincos24Response theta) s

end Sys2Proof.Machine
end

