-- ==== Sys2Proof/Machine/Dispatch.lean ====
section
/-! DEFINITION. One arm per constructor: the edge at which CORE accepts the request (30_encoding.md R52, 70_reset_and_hazards.md
R177). -/

namespace Sys2Proof.Machine

def exec (i : Instr) (s : State) : Host.Outcome State Fault Refusal :=
  match i with
  | .rot x0 y0 z0 => Sys2Proof.Machine.execRot x0 y0 z0 s
  | .vec x0 y0 z0 => Sys2Proof.Machine.execVec x0 y0 z0 s
  | .qnorm x y => Sys2Proof.Machine.execQnorm x y s
  | .rnd value bits => Sys2Proof.Machine.execRnd value bits s
  | .mag x y => Sys2Proof.Machine.execMag x y s
  | .magw x y => Sys2Proof.Machine.execMagw x y s
  | .phase16 x y => Sys2Proof.Machine.execPhase16 x y s
  | .phase24 x y => Sys2Proof.Machine.execPhase24 x y s
  | .sincos24 theta => Sys2Proof.Machine.execSincos24 theta s
  | .reserved9 => Sys2Proof.Machine.execReserved9 s
  | .reservedAB op => Sys2Proof.Machine.execReservedAB op s
  | .reservedCF op => Sys2Proof.Machine.execReservedCF op s

end Sys2Proof.Machine
end

