-- ==== Sys2Proof/Machine/Edge.lean ====
section
/-! DEFINITION. One rising edge of `clk` under given input ports (70_reset_and_hazards.md R170 to R177). -/

namespace Sys2Proof.Machine

/-- The step relation of R177.  `rst` = 1 empties every slot and the request port is not sampled (R171).  With `rst` = 0 a request
is accepted exactly when `in_valid` = 1 (R172), and an `Empty` enters otherwise.  Before the first reset since power-up the slots
stay a draw, and an edge with `rst` = 0, a request's or an idle one, is refused: "a run with no initial reset is not modelled"
(U5; R34, R174, D30). -/
def edge (p : Pins) (s : State) : Host.Outcome State Fault Refusal :=
  if p.rst then .next s.clear
  else if s.resetSeen then
    if p.inValid then exec (decode p.req.toWord) s else .next (s.clock .empty)
  else .refused .noResetSincePowerUp

/-- What the host drives at the next edge: the first line left, or IDLE when no line is left (assumption 2). -/
def State.nextPins (s : State) : Pins :=
  s.drive.headD .idle

/-- The state with the next edge's line taken off. -/
def State.dropPins (s : State) : State :=
  { s with drive := s.drive.tail }

/-- Drive the request word `w` at the next edge, in place of what the host would have driven there, after a reset. -/
def State.driveWord (s : State) (w : BitVec 100) : State :=
  { s with
    resetSeen := true
    drive := .request (Request.ofWord w) :: s.drive.tail }

end Sys2Proof.Machine
end

