-- ==== Sys2Proof/Machine/Step.lean ====
section
/-! DEFINITION. One step is one rising edge of `clk` (R170, R177).  CORE fetches nothing (R42, R48): the "instruction" of an
edge is what the host drives on the request port. -/

namespace Sys2Proof.Machine

/-- The next rising edge, under what the host drives there. -/
def step (s : State) : Host.Outcome State Fault Refusal :=
  edge s.nextPins s.dropPins

/-- `s` with the request word whose lowest `nbits` bits are `w`'s driven at the next edge (assumption 3: a program comes from the
host, from outside CORE). -/
def State.withFetchWord (s : State) (nbits w : Nat) : State :=
  s.driveWord (BitVec.ofNat 100 (w % 2 ^ nbits))

end Sys2Proof.Machine
end

