-- ==== Sys2Proof/Machine/Assembler.lean ====
section
/-! DEFINITION. The lines of a CORE program and the port values each stands for (30_encoding.md R59, R60).  A line's operands are
integers; reading the literals from text is notation only (D25). -/

namespace Sys2Proof.Machine

/-- One line (R59): one clock edge. -/
inductive Line where
  | rot (x0 y0 z0 : Int)
  | vec (x0 y0 z0 : Int)
  | qnorm (x y : Int)
  | rnd (value bits : Int)
  | mag (x y : Int)
  | magw (x y : Int)
  | phase16 (x y : Int)
  | phase24 (x y : Int)
  | sincos24 (theta : Int)
  /-- `.req`: a raw request word, any op including reserved ones. -/
  | req (r : Request)
  | idle
  | reset
deriving DecidableEq, Repr

/-- An operand as "the two's-complement pattern of the field's width, without range complaint" (R59). -/
def operandWord (v : Int) : Word :=
  BitVec.ofInt 32 v

/-- A 16-bit operand "is written sign-extended to 32 bits" (R59). -/
def operandSample (v : Int) : Word :=
  (BitVec.ofInt 16 v).signExtend 32

/-- The port values of a line; a field the line does not name is written 0 (R59, R60). -/
def assemble (l : Line) : Pins :=
  match l with
  | .rot x0 y0 z0 => .request ⟨0x0#4, operandWord z0, operandWord y0, operandWord x0⟩
  | .vec x0 y0 z0 => .request ⟨0x1#4, operandWord z0, operandWord y0, operandWord x0⟩
  | .qnorm x y => .request ⟨0x2#4, 0#32, operandWord y, operandWord x⟩
  | .rnd value bits =>
    .request ⟨0x3#4, operandWord bits, (BitVec.ofInt 64 value).extractLsb' 32 32, (BitVec.ofInt 64 value).extractLsb' 0 32⟩
  | .mag x y => .request ⟨0x4#4, 0#32, operandSample y, operandSample x⟩
  | .magw x y => .request ⟨0x5#4, 0#32, operandSample y, operandSample x⟩
  | .phase16 x y => .request ⟨0x6#4, 0#32, operandSample y, operandSample x⟩
  | .phase24 x y => .request ⟨0x7#4, 0#32, operandSample y, operandSample x⟩
  | .sincos24 theta => .request ⟨0x8#4, 0#32, 0#32, operandWord theta⟩
  | .req r => .request r
  | .idle => .idle
  | .reset => .reset

end Sys2Proof.Machine
end

