-- ==== Sys2Proof/Machine/Respond.lean ====
section
/-! DEFINITION. The rule R177 calls `Exec`: a request's response as a pure function of the request (R9, R46). -/

namespace Sys2Proof.Machine

/-- `Exec` of a decoded request (the table of R177). -/
def responseOf (i : Instr) : Response :=
  match i with
  | .rot x0 y0 z0 => rotResponse x0 y0 z0
  | .vec x0 y0 z0 => vecResponse x0 y0 z0
  | .qnorm x y => qnormResponse x y
  | .rnd value bits => rndResponse value bits
  | .mag x y => magResponse x y
  | .magw x y => magwResponse x y
  | .phase16 x y => phase16Response x y
  | .phase24 x y => phase24Response x y
  | .sincos24 theta => sincos24Response theta
  | .reserved9 => reservedResponse 0x9#4
  | .reservedAB op => reservedResponse op
  | .reservedCF op => reservedResponse op

/-- `Exec({op, c, b, a})` (R177). -/
def requestResponse (r : Request) : Response :=
  responseOf (decode r.toWord)

end Sys2Proof.Machine
end

