-- ==== Sys2Proof/Machine/Observe.lean ====
section
/-! DEFINITION. What a host that samples the outputs at every edge sees (R182, D27): "the ordered list of responses
sampled, each with its edge number". -/

namespace Sys2Proof.Machine

/-- A response and the number of the edge at which the host sampled it (D27). -/
structure Sighting where
  edge : Nat
  rsp : Response
deriving DecidableEq, Repr

/-- What the host samples at the next edge: the response the ports show, if `out_valid` = 1 (R33, R43).
Before the first reset it samples nothing, whatever the drawn slots show: a model must "require a reset before it reads any
response" (R34), and D27 does not say what the outputs show there.  That the list is then empty is a DESIGN CHOICE (assumption
6, unsafe for a host that reads before its reset).  That a response is still sampled at an edge with `rst` = 1 is DEDUCED from
R178 (assumption 10). -/
def State.sighting (s : State) : List Sighting :=
  if s.resetSeen then
    match s.lastSlot with
    | .empty => []
    | .full rsp => [⟨s.edgeCount + 1, rsp⟩]
  else []

/-- The responses sampled at the next `n` edges, in order; it ends where the machine stops. -/
def observe : Nat → State → List Sighting
  | 0, _ => []
  | n + 1, s =>
    s.sighting ++
      match step s with
      | .next t => observe n t
      | .fault _ => []
      | .refused _ => []

/-- No reset at any of the edges n+1 to n+LATENCY-1 that follow an edge n, when `ps` is driven from edge n+1 on (R178). -/
def noResetInFlight (ps : List Pins) : Bool :=
  (ps.take (Config.latency - 1)).all fun p => !p.rst

/-- The sightings the rules promise when `ps` is driven from edge `n` on: each accepted request's response at its edge plus
LATENCY, in request order, unless a reset came while it was in flight (R45, R171, R178). -/
def promised : Nat → List Pins → List Sighting
  | _, [] => []
  | n, p :: ps =>
    (if p.accepts && noResetInFlight ps then [⟨n + Config.latency, requestResponse p.req⟩] else []) ++
      promised (n + 1) ps

end Sys2Proof.Machine
end

