-- ==== Sys2Proof/Machine/Staged.lean ====
section
/-! DEFINITION. The staged hardware behind the slots: one register per pipeline stage, with the working triples, the mode and the
side-band (10_state.md R26 to R29), laid out as R183 does.  No port shows these registers, and R20 says the slots stand for
them; this second machine is here so that the claim of R20, "the same responses at the same edges as the staged
hardware", can be stated and proved.  The choice of side-band registers is the implementation's (R29); this one is assumption 4. -/

namespace Sys2Proof.Machine

/-- The side-band of a request in flight (R29). -/
structure SideBand where
  op : Opcode
  /-- The quadrant index (R102). -/
  q : BitVec 2
  /-- The axis special-case result, if one applies (R111). -/
  axis : Option Word
  /-- The two negate bits of SINCOS24 (R142). -/
  negCos : Bool
  negSin : Bool
  /-- The operands of RND (value, bits) and of QNORM ({y, x}). -/
  operand : Wide
  bits : Word
  err : Bool
deriving DecidableEq, Repr

/-- One stage's registers: the triple, the mode bit and the side-band (R26, R28, R29). -/
structure StageReg where
  triple : Triple
  mode : Mode
  side : SideBand
deriving DecidableEq, Repr

/-- A side-band that carries only the opcode. -/
def SideBand.plain (op : Opcode) : SideBand where
  op := op
  q := 0#2
  axis := none
  negCos := false
  negSin := false
  operand := 0#64
  bits := 0#32
  err := false

/-- What a request that does not use the engine leaves in the triple and the mode; nothing reads it. -/
def StageReg.noEngine (side : SideBand) : StageReg where
  triple := ⟨0#32, 0#32, 0#32⟩
  mode := .rotation
  side := side

/-- Slot 1's work: the axis tests, QN, abs, the sine/cosine fold and the RND range check (R183). -/
def preprocess (r : Request) : StageReg :=
  match decode r.toWord with
  | .rot x0 y0 z0 => ⟨⟨x0, y0, z0⟩, .rotation, .plain 0x0#4⟩
  | .vec x0 y0 z0 => ⟨⟨x0, y0, z0⟩, .vectoring, .plain 0x1#4⟩
  | .qnorm x y => .noEngine { SideBand.plain 0x2#4 with q := quadrant x y, operand := y ++ x }
  | .rnd value bits =>
    .noEngine { SideBand.plain 0x3#4 with operand := value, bits := bits, err := !rndShiftLegal bits }
  | .mag x y => ⟨magStart x y, .vectoring, .plain 0x4#4⟩
  | .magw x y => ⟨magStart x y, .vectoring, .plain 0x5#4⟩
  | .phase16 x y =>
    ⟨⟨(foldedSamples x y).x, (foldedSamples x y).y, 0#32⟩, .vectoring,
      { SideBand.plain 0x6#4 with q := (foldedSamples x y).q, axis := axisPhase16 x y }⟩
  | .phase24 x y =>
    ⟨⟨(foldedSamples x y).x, (foldedSamples x y).y, 0#32⟩, .vectoring,
      { SideBand.plain 0x7#4 with q := (foldedSamples x y).q, axis := axisPhase24 x y }⟩
  | .sincos24 theta =>
    ⟨sinCosStart theta, .rotation, { SideBand.plain 0x8#4 with negCos := negCos theta, negSin := negSin theta }⟩
  | .reserved9 => .noEngine { SideBand.plain 0x9#4 with err := true }
  | .reservedAB op => .noEngine { SideBand.plain op with err := true }
  | .reservedCF op => .noEngine { SideBand.plain op with err := true }

/-- One engine stage: iteration i on the triple, everything else carried along (R27). -/
def StageReg.advance (i : Nat) (w : StageReg) : StageReg :=
  { w with triple := iterate w.mode i w.triple }

/-- Slot 26's work: round, compose, gain multiply and negate (R183), or the error response (R151). -/
def postprocess (w : StageReg) : Response :=
  if w.side.err then raiseErr (if 0x9 ≤ w.side.op.toNat then .reservedOp else .rndShiftRange) w.side.op
  else
    match w.side.op.toNat with
    | 0x0 | 0x1 => respondTriple w.side.op w.triple
    | 0x2 =>
      respondFolded w.side.op
        ⟨(foldBy w.side.q (lowWord w.side.operand) (highWord w.side.operand)).1,
          (foldBy w.side.q (lowWord w.side.operand) (highWord w.side.operand)).2, w.side.q⟩
    | 0x3 =>
      respond w.side.op (lowWord (roundShift w.side.operand w.side.bits.toNat))
        (highWord (roundShift w.side.operand w.side.bits.toNat)) 0#32
    | 0x4 => respondNarrow w.side.op (gainProduct w.triple.x)
    | 0x5 => respondWide w.side.op (gainProduct w.triple.x)
    | 0x6 => respond w.side.op (w.side.axis.getD (composePhase16 w.side.q w.triple.z)) 0#32 0#32
    | 0x7 => respond w.side.op (w.side.axis.getD (composePhase24 w.side.q w.triple.z)) 0#32 0#32
    | _ => respondSinCos w.side.op w.side.negCos w.side.negSin w.triple

/-- The staged registers (R183): 1 + 1 + 24 + 1 = 27.  `none` is a stage whose valid bit is 0; what its other registers hold
is then "unspecified; unobservable" (R34), so they are not represented. -/
structure Staged where
  /-- Slot 0, the input register. -/
  input : Option Request
  /-- Slot 1, the pre-processed request: the engine's stage 0. -/
  pre : Option StageReg
  /-- Slots 2 to 25: entry i holds the engine's stage i+1. -/
  engine : Vector (Option StageReg) iterations
  /-- Slot 26, the post-processed response: the output register. -/
  output : Option Response
deriving DecidableEq, Repr

/-- Every valid bit 0 (R34, R171). -/
def Staged.reset : Staged where
  input := none
  pre := none
  engine := Vector.replicate iterations none
  output := none

/-- One rising edge of the staged hardware: each stage from the one before it alone (R27). -/
def Staged.edge (p : Pins) (h : Staged) : Staged :=
  if p.rst then .reset
  else
    { input := if p.inValid then some p.req else none
      pre := h.input.map preprocess
      engine := Vector.ofFn fun i =>
        (if i.val = 0 then h.pre else h.engine[i.val - 1]'(by have := i.isLt; omega)).map (StageReg.advance i.val)
      output := (h.engine[iterations - 1]'(by decide)).map postprocess }

/-- The staged hardware after the edges `ps`. -/
def Staged.run (h : Staged) (ps : List Pins) : Staged :=
  ps.foldl (fun h p => h.edge p) h

/-- A stage's content as a slot: no request is `Empty`. -/
def Slot.ofOption : Option Response → Slot
  | none => .empty
  | some rsp => .full rsp

/-- The slot model's `slot[LATENCY-1]` shows what the staged output register holds. -/
def Staged.shows (h : Staged) : Slot :=
  .ofOption h.output

/-- The response a stage register will give after `n` more engine stages, the next of them iteration `i`. -/
def StageReg.finish : Nat → Nat → StageReg → Response
  | 0, _, w => postprocess w
  | n + 1, i, w => StageReg.finish n (i + 1) (w.advance i)

/-- The response that the request in slot `k`'s registers will give, if there is one (R183's stage plan: entry k - 2 of the
engine holds stage k - 1). -/
def Staged.pending (h : Staged) (k : Nat) : Option Response :=
  if k = 0 then h.input.map fun r => (preprocess r).finish iterations 0
  else if k = 1 then h.pre.map (StageReg.finish iterations 0)
  else if hk : k - 2 < iterations then (h.engine[k - 2]).map (StageReg.finish (iterations - (k - 1)) (k - 1))
  else h.output

/-- The slots of R20 stand for the staged registers: each slot holds the response its registers will give. -/
def Staged.Matches (h : Staged) (s : State) : Prop :=
  ∀ (k : Nat) (hk : k < Config.latency), s.slots[k] = .ofOption (h.pending k)

end Sys2Proof.Machine
end

