-- ==== Sys2Proof/Reference.lean ====
section
/-! DEFINITION. The spec's pseudocode over mathematical integers, in the notation of 00_scope.md R6 and R7, for claims to compare the
machine with.  "Every value in every rule is a mathematical integer" (R6), and "only the stated wrap_N loses bits" (R8): here
a signed 32-bit register is an Int and each wrap is written where the rules write it.  The machine of Machine/ never
imports this file; it computes on bit vectors. -/

namespace Sys2Proof.Reference

/-- `asr(v, k)` = floor(v / 2^k) (R7). -/
def asr (v : Int) (k : Nat) : Int :=
  v / 2 ^ k

/-- `v[k]`, bit k of v's infinitely sign-extended pattern (R7). -/
def bit (v : Int) (k : Nat) : Int :=
  v / 2 ^ k % 2

/-- `wrap_N(v)`, the u in [-2^(N-1), 2^(N-1) - 1] with u = v mod 2^N (R7). -/
def wrap (n : Nat) (v : Int) : Int :=
  (v + 2 ^ (n - 1)) % 2 ^ n - 2 ^ (n - 1)

/-- `round(value, bits)` (R70). -/
def round (value : Int) (bits : Nat) : Int :=
  asr value bits + bit value (bits - 1)

/-- table[0] to table[23] (R22, the decimal column). -/
def table : List Int :=
  [4194304, 2476042, 1308273, 664100, 333339, 166832, 83436, 41721, 20861, 10430, 5215, 2608,
   1304, 652, 326, 163, 81, 41, 20, 10, 5, 3, 1, 1]

/-- G (R24). -/
def G : Int :=
  39797

/-- The triple (x, y, z) of signed values (R80). -/
structure Triple where
  x : Int
  y : Int
  z : Int
deriving DecidableEq, Repr

/-- The decision bit d (R80, R81). -/
def decision (m : Machine.Mode) (t : Triple) : Bool :=
  match m with
  | .rotation => decide (t.z < 0)
  | .vectoring => decide (t.y ≥ 0)

/-- Iteration i of R80, with each sum passed through `w`: `wrap 32` for the engine's registers (R82, R83, R86), or the identity
for registers that never overflow (R117). -/
def iteration (w : Int → Int) (m : Machine.Mode) (i : Nat) (t : Triple) : Triple :=
  if decision m t then ⟨w (t.x + asr t.y i), w (t.y - asr t.x i), w (t.z + table.getD i 0)⟩
  else ⟨w (t.x - asr t.y i), w (t.y + asr t.x i), w (t.z - table.getD i 0)⟩

/-- (x_n, y_n, z_n), by iterations 0 to n-1. -/
def stage (w : Int → Int) (m : Machine.Mode) (t : Triple) (n : Nat) : Triple :=
  (List.range n).foldl (fun t i => iteration w m i t) t

/-- `CORDIC(x0, y0, z0, mode)` (R80). -/
def cordic (m : Machine.Mode) (x0 y0 z0 : Int) : Triple :=
  stage (wrap 32) m ⟨x0, y0, z0⟩ 24

/-- `QN(x, y)` = (x', y', q) (R100, R101). -/
def QN (x y : Int) : Int × Int × Nat :=
  if x > 0 ∧ y ≥ 0 then (x, y, 0)
  else if x ≤ 0 ∧ y > 0 then (y, wrap 32 (-x), 1)
  else if x < 0 ∧ y ≤ 0 then (wrap 32 (-x), wrap 32 (-y), 2)
  else (wrap 32 (-y), x, 3)

/-- `PHASE16_PATH(x, y)` (R112): `w & 0x3FFF` is w's low 14 bits, and the OR is on naturals. -/
def phase16Path (x y : Int) : Nat :=
  let f := QN x y
  let w := round (cordic .vectoring f.1 f.2.1 0).z 9
  f.2.2 <<< 14 ||| (w % 2 ^ 14).toNat

/-- PHASE16's p (R113). -/
def phase16 (x y : Int) : Nat :=
  if x = 0 ∧ y = 0 then 0
  else if x = 0 then (if y > 0 then 16384 else 49152)
  else if y = 0 then (if x > 0 then 0 else 32768)
  else phase16Path x y

/-- PHASE24's engine path (R115): the mathematical sum, then its low 24 bits. -/
def phase24Path (x y : Int) : Nat :=
  let f := QN x y
  let w := round (cordic .vectoring f.1 f.2.1 0).z 1
  (((f.2.2 : Int) * 2 ^ 22 + w) % 2 ^ 24).toNat

/-- PHASE24's p (R115). -/
def phase24 (x y : Int) : Nat :=
  if x = 0 ∧ y = 0 then 0
  else if x = 0 then (if y > 0 then 0x400000 else 0xC00000)
  else if y = 0 then (if x > 0 then 0x000000 else 0x800000)
  else phase24Path x y

/-- MAG_PATH's product P (R118). -/
def magProduct (x y : Int) : Int :=
  (cordic .vectoring |x| |y| 0).x * G

/-- SINCOS24's (cos, sin) (R144), for theta in [0, 2^24 - 1]. -/
def sinCos (theta : Nat) : Int × Int :=
  let b23 : Nat := theta / 2 ^ 23 % 2
  let b22 : Nat := theta / 2 ^ 22 % 2
  let lo : Nat := theta % 2 ^ 22
  let f : Nat := if b22 = 1 then 0x3FFFFF - lo else lo
  let t := cordic .rotation G 0 ((f : Int) * 2)
  (if b23 ^^^ b22 = 1 then -t.x else t.x, if b23 = 1 then -t.y else t.y)

end Sys2Proof.Reference
end

