-- ==== Sys2Proof/Safety.lean ====
section
/-! DEFINITION. What claims take as a premise or a conclusion: the legal requests and error-free runs (60_exceptions.md R150,
R151), and the invariants of the state. -/

namespace Sys2Proof

open Sys2Proof.Machine

/-- The two conditions of R150 do not hold: `i` is no reserved code, and an RND's shift is in range. -/
def Instr.legal : Instr → Bool
  | .rnd _ bits => rndShiftLegal bits
  | .reserved9 | .reservedAB _ | .reservedCF _ => false
  | .rot _ _ _ | .vec _ _ _ | .qnorm _ _ | .mag _ _ | .magw _ _ | .phase16 _ _ | .phase24 _ _ | .sincos24 _ => true

/-- "no response has err = 1" (R151). -/
def ErrorFree (l : List Sighting) : Prop :=
  ∀ v ∈ l, v.rsp.err = false

/-- Every request the lines issue is legal. -/
def LegalLines (ps : List Pins) : Prop :=
  ∀ p ∈ ps, p.accepts = true → (decode p.req.toWord).legal = true

/-- Every full slot holds the response of some request: what the slots of a state after reset can hold (R20, R34).
At power-up, before any reset, a slot may hold any word, so nothing is asked there. -/
def SlotsHoldResponses (s : State) : Prop :=
  s.resetSeen = true → ∀ (k : Nat) (h : k < Config.latency) (rsp : Response),
    s.slots[k] = .full rsp → ∃ r : Request, rsp = requestResponse r

/-- Every slot is `Empty` (R34, R171). -/
def AllEmpty (s : State) : Prop :=
  ∀ (k : Nat) (h : k < Config.latency), s.slots[k] = .empty

end Sys2Proof
end

