-- ==== Sys2Proof/Certificates/Slice0/Obligations.lean ====
section
/-! DEFINITION. The statements for the provers.  `Reference` is the spec's integer pseudocode; `exec` and `step` are the
machine's.  A response is written `⟨err, op, r2, r1, r0⟩`, in the order of the response word (R51). -/

open Sys2Proof Sys2Proof.Machine

/-! ### Encoding -/

/-- Decoding an encoded well-formed instruction gives it back, every operand at every value (R53, R59). -/
def Obligations.DecodeOfEncodeIsIdentity : Prop :=
  ∀ i : Instr, i.wf = true → decode (encode i) = i

/-- Every word decodes to a well-formed instruction whose encoding keeps every bit the operation reads (R53, R56, R58). -/
def Obligations.EncodeOfDecodeKeepsReadBits : Prop :=
  ∀ w : BitVec 100, (decode w).wf = true ∧
    encode (decode w) &&& readMask (w.extractLsb' 96 4) = w &&& readMask (w.extractLsb' 96 4)

/-- What each op code names (R58), with the operands of R53's table.  That the reserved codes are three constructors, one for each row of
the opcode table, is the model's choice (assumption 12); R58 names one reserved operation. -/
def Obligations.DecodeNamesOperationAndOperands : Prop :=
  ∀ c b a : Word,
    decode (Request.toWord ⟨0x0#4, c, b, a⟩) = .rot a b c ∧
    decode (Request.toWord ⟨0x1#4, c, b, a⟩) = .vec a b c ∧
    decode (Request.toWord ⟨0x2#4, c, b, a⟩) = .qnorm a b ∧
    decode (Request.toWord ⟨0x3#4, c, b, a⟩) = .rnd (b ++ a) c ∧
    decode (Request.toWord ⟨0x4#4, c, b, a⟩) = .mag (a.extractLsb' 0 16) (b.extractLsb' 0 16) ∧
    decode (Request.toWord ⟨0x5#4, c, b, a⟩) = .magw (a.extractLsb' 0 16) (b.extractLsb' 0 16) ∧
    decode (Request.toWord ⟨0x6#4, c, b, a⟩) = .phase16 (a.extractLsb' 0 16) (b.extractLsb' 0 16) ∧
    decode (Request.toWord ⟨0x7#4, c, b, a⟩) = .phase24 (a.extractLsb' 0 16) (b.extractLsb' 0 16) ∧
    decode (Request.toWord ⟨0x8#4, c, b, a⟩) = .sincos24 (a.extractLsb' 0 24) ∧
    decode (Request.toWord ⟨0x9#4, c, b, a⟩) = .reserved9 ∧
    (∀ op : Opcode, op = 0xA#4 ∨ op = 0xB#4 → decode (Request.toWord ⟨op, c, b, a⟩) = .reservedAB op) ∧
    ∀ op : Opcode, 0xC ≤ op.toNat → decode (Request.toWord ⟨op, c, b, a⟩) = .reservedCF op

/-- Two words name the same term exactly when they agree on the bits R53 does not mark ignored, and then their responses agree; and the one
illegal operand value that is no reserved code is an RND shift outside 1 to 63.  R56 states that words differing in ignored bits name one
term; the converse follows from R53's operand table and R58, and for the reserved codes it rests on the model's choice to keep the code
in the term (assumption 12, DESIGN CHOICE). -/
def Obligations.DecodeIgnoresExactlyTheDontCareBits : Prop :=
  (∀ w₁ w₂ : BitVec 100,
    decode w₁ = decode w₂ ↔
      w₁ &&& readMask (w₁.extractLsb' 96 4) = w₂ &&& readMask (w₁.extractLsb' 96 4)) ∧
  (∀ w₁ w₂ : BitVec 100,
    w₁ &&& readMask (w₁.extractLsb' 96 4) = w₂ &&& readMask (w₁.extractLsb' 96 4) →
      requestResponse (Request.ofWord w₁) = requestResponse (Request.ofWord w₂)) ∧
  ∀ r : Request, r.op.toNat < 9 →
    ((requestResponse r).err = true ↔ r.op = 0x3#4 ∧ ¬(1 ≤ r.c.toNat ∧ r.c.toNat ≤ 63))

/-- Each word lies in exactly one row of spec/opcode_table.json: the row of the instruction it decodes to. -/
def Obligations.OpcodeTableRowsPartitionTheWords : Prop :=
  opcodeTable.length = 12 ∧
  ∀ (w : BitVec 100) (n : Nat) (row : OpcodeRow), opcodeTable[n]? = some row →
    (row.covers w = true ↔ (decode w).row = n)

/-- Request words, from 95_test_vectors.md (PHASE24's written from the layout of R50), decode to the operations they stand for. -/
def Obligations.DecodeOfSpecWords : Prop :=
  decode 0x0008000000000000000009B75#100 = .rot 39797#32 0#32 8388608#32 ∧
  decode 0x1000000000000000400000003#100 = .vec 3#32 4#32 0#32 ∧
  decode 0x21234567800000005FFFFFFFD#100 = .qnorm 0xFFFFFFFD#32 5#32 ∧
  decode 0x300000009000000000051DD1E#100 = .rnd 5365022#64 9#32 ∧
  decode 0x4000000000000000400000003#100 = .mag 3#16 4#16 ∧
  decode 0x500000000FFFF8000FFFF8000#100 = .magw 0x8000#16 0x8000#16 ∧
  decode 0x600000000ABCD0001DEAD0001#100 = .phase16 1#16 1#16 ∧
  decode 0x70000000000000005FFFFFFFD#100 = .phase24 0xFFFD#16 5#16 ∧
  decode 0x8000000000000000001000000#100 = .sincos24 0#24 ∧
  decode 0x9000000000000000000000000#100 = .reserved9 ∧
  decode 0xBFFFFFFFFFFFFFFFFFFFFFFFF#100 = .reservedAB 0xB#4 ∧
  decode 0xF00000000000000000000000A#100 = .reservedCF 0xF#4

/-- The numeric places of the fields of the two words (R50, R51), and that the fields and the word determine each other. -/
def Obligations.RequestAndResponseWordLayout : Prop :=
  (∀ r : Request,
    r.toWord.toNat = r.op.toNat * 2 ^ 96 + r.c.toNat * 2 ^ 64 + r.b.toNat * 2 ^ 32 + r.a.toNat ∧
    Request.ofWord r.toWord = r) ∧
  (∀ w : BitVec 100, (Request.ofWord w).toWord = w) ∧
  (∀ rsp : Response,
    rsp.toWord.toNat =
      rsp.err.toNat * 2 ^ 100 + rsp.op.toNat * 2 ^ 96 + rsp.r2.toNat * 2 ^ 64 + rsp.r1.toNat * 2 ^ 32 + rsp.r0.toNat ∧
    Response.ofWord rsp.toWord = rsp) ∧
  ∀ w : BitVec 101, (Response.ofWord w).toWord = w

/-- R59, R60: a line of each form is one edge that issues the operation it names, with the operands' two's-complement patterns. -/
def Obligations.AssembledLinesIssueTheirOperations : Prop :=
  (∀ l : Line, l ≠ .idle → l ≠ .reset → (assemble l).rst = false ∧ (assemble l).inValid = true) ∧
  (∀ x y z : Int, decode (assemble (.rot x y z)).req.toWord = .rot (.ofInt 32 x) (.ofInt 32 y) (.ofInt 32 z)) ∧
  (∀ x y z : Int, decode (assemble (.vec x y z)).req.toWord = .vec (.ofInt 32 x) (.ofInt 32 y) (.ofInt 32 z)) ∧
  (∀ x y : Int, decode (assemble (.qnorm x y)).req.toWord = .qnorm (.ofInt 32 x) (.ofInt 32 y)) ∧
  (∀ v n : Int, decode (assemble (.rnd v n)).req.toWord = .rnd (.ofInt 64 v) (.ofInt 32 n)) ∧
  (∀ x y : Int, decode (assemble (.mag x y)).req.toWord = .mag (.ofInt 16 x) (.ofInt 16 y)) ∧
  (∀ x y : Int, decode (assemble (.magw x y)).req.toWord = .magw (.ofInt 16 x) (.ofInt 16 y)) ∧
  (∀ x y : Int, decode (assemble (.phase16 x y)).req.toWord = .phase16 (.ofInt 16 x) (.ofInt 16 y)) ∧
  (∀ x y : Int, decode (assemble (.phase24 x y)).req.toWord = .phase24 (.ofInt 16 x) (.ofInt 16 y)) ∧
  (∀ v : Int, decode (assemble (.sincos24 v)).req.toWord = .sincos24 (.ofInt 24 v)) ∧
  (∀ r : Request, (assemble (.req r)).req = r) ∧
  ((assemble .idle).rst = false ∧ (assemble .idle).inValid = false) ∧
  (assemble .reset).rst = true ∧
  (assemble (.phase16 1 1)).req.toWord = 0x6000000000000000100000001#100

/-! ### The step, reset and the ports -/

/-- A step whose edge accepts a request is `exec` of the decoded word, with the edge's line taken off. -/
def Obligations.StepRunsTheDecodedInstruction : Prop :=
  ∀ (s : State) (p : Pins) (ps : List Pins),
    s.drive = p :: ps → s.resetSeen = true → p.rst = false → p.inValid = true →
      step s = exec (decode p.req.toWord) { s with drive := ps }

/-- R177: with `rst` = 1 every slot becomes Empty; otherwise every slot advances, and slot[0] takes Full(Exec(request)) or Empty. -/
def Obligations.StepFollowsTheSlotRelation : Prop :=
  ∀ (s : State) (p : Pins) (ps : List Pins), s.drive = p :: ps → s.resetSeen = true →
    ∃ t : State, step s = .next t ∧
      (p.rst = true → ∀ (k : Nat) (h : k < Config.latency), t.slots[k] = .empty) ∧
      (p.rst = false →
        (∀ (k : Nat) (h : k + 1 < Config.latency), t.slots[k + 1] = s.slots[k]) ∧
        t.slots[0]'Config.latency_pos = (if p.inValid then .full (requestResponse p.req) else .empty)) ∧
      t.resetSeen = true ∧ t.drive = ps ∧ t.edgeCount = s.edgeCount + 1

/-- R171: an edge with `rst` = 1 empties every slot from any state, power-up included; holding `rst` keeps them so; and what was in
flight never responds: while the lines `qs` are driven afterwards, the host samples only what those lines promise (R45, R178).  That a
response is still sampled at a later edge with `rst` = 1 is the model's reading (assumption 10, DEDUCED). -/
def Obligations.ResetEdgesEmptyEverySlot : Prop :=
  ∀ (s : State) (ps qs : List Pins), ps ≠ [] → (∀ p ∈ ps, p.rst = true) →
    ∃ t : State, Host.Core.run core ps.length { s with drive := ps ++ qs } = .next t ∧
      AllEmpty t ∧ t.outValid = false ∧ t.resetSeen = true ∧ t.drive = qs ∧
      observe qs.length t = (promised (t.edgeCount + 1) qs).filter (fun v => v.edge ≤ t.edgeCount + qs.length)

/-- R174: at power-up the slots hold any draw; a run without a reset is refused; and one edge with `rst` = 1 is enough: it leaves every slot
Empty.  That every edge with `rst` = 0 before the first reset is refused, an idle one as well as a request's, is the model's reading of
R174, U5 and D30 (assumption 6, DEDUCED). -/
def Obligations.PowerUpNeedsOneResetEdge : Prop :=
  ∀ (draw : Vector Slot Config.latency) (ps : List Pins) (p : Pins),
    (p.rst = false → step { State.powerUp draw with drive := p :: ps } = .refused .noResetSincePowerUp) ∧
    (p.rst = true → ∃ t : State, step { State.powerUp draw with drive := p :: ps } = .next t ∧
      AllEmpty t ∧ t.resetSeen = true ∧ t.drive = ps)

/-- After a reset every edge completes: CORE never stalls, traps or stops, whatever its slots hold and whatever is driven (R153, R177).
That an edge beyond the driven lines is an IDLE edge is the model's choice (assumption 2). -/
def Obligations.StepAfterResetAlwaysCompletes : Prop :=
  ∀ s : State, s.resetSeen = true →
    ∃ t : State, step s = .next t ∧ t.resetSeen = true ∧ t.edgeCount = s.edgeCount + 1 ∧ t.drive = s.drive.tail

/-- What reset leaves (R34): every slot Empty and `out_valid` = 0, so that nothing is sampled until a request is accepted.  The empty
drive list and the edge number are the model's own (assumptions 2 and 5). -/
def Obligations.ResetStateIsEmpty : Prop :=
  AllEmpty State.reset ∧ State.reset.outValid = false ∧ State.reset.resetSeen = true ∧
    State.reset.drive = [] ∧ State.reset.edgeCount = 0 ∧
    ∀ ps : List Pins, (∀ p ∈ ps, p.accepts = false) → observe ps.length { State.reset with drive := ps } = []

/-- R172: `in_ready` is NOT `rst`; a request enters exactly when `in_valid` = 1 and `rst` = 0; and while `rst` = 1 the valid bit and the
request fields change nothing. -/
def Obligations.RequestEntersExactlyWhenAccepted : Prop :=
  (∀ p : Pins, p.inReady = !p.rst) ∧
  (∀ (s : State) (p : Pins) (ps : List Pins), s.drive = p :: ps → s.resetSeen = true →
    ∃ t : State, step s = .next t ∧
      ((∃ rsp : Response, t.slots[0]'Config.latency_pos = .full rsp) ↔ p.inValid = true ∧ p.rst = false)) ∧
  ∀ (s : State) (p p' : Pins) (ps : List Pins), p.rst = true → p'.rst = true →
    step { s with drive := p :: ps } = step { s with drive := p' :: ps }

/-- While `in_valid` = 0 the request fields change nothing (R176). -/
def Obligations.IdleEdgeIgnoresRequestFields : Prop :=
  ∀ (s : State) (r r' : Request) (rst : Bool) (ps : List Pins),
    step { s with drive := ⟨rst, false, r⟩ :: ps } = step { s with drive := ⟨rst, false, r'⟩ :: ps }

/-- The response ports show slot[LATENCY-1] (R33); what they show while `out_valid` = 0 is a free value, and nothing is said of it. -/
def Obligations.OutputPortsShowTheLastSlot : Prop :=
  ∀ s : State,
    (s.outValid = true ↔ ∃ rsp : Response, s.slots[Config.latency - 1]'(by decide) = .full rsp) ∧
    ∀ rsp : Response, s.slots[Config.latency - 1]'(by decide) = .full rsp → s.outPorts = rsp

/-! ### Latency, order and independence -/

/-- R178: an accepted request's response is on the ports after LATENCY edges, whatever the request and whatever else is in flight,
provided no reset comes in between; otherwise it is lost. -/
def Obligations.ResponseAppearsAfterLatency : Prop :=
  ∀ (s : State) (p : Pins) (ps : List Pins),
    s.drive = p :: ps → Config.latency - 1 ≤ ps.length → s.resetSeen = true → p.accepts = true →
      ∃ t : State, Host.Core.run core Config.latency s = .next t ∧
        (noResetInFlight ps = true → t.outValid = true ∧ t.outPorts = requestResponse p.req) ∧
        (noResetInFlight ps = false → t.outValid = false)

/-- R45: from empty slots, a host that samples every edge sees exactly one response for each accepted request not overtaken by a reset,
LATENCY edges after the request and in request order.  That a response is still sampled at an edge with `rst` = 1 is the model's
reading of R178 (assumption 10, DEDUCED). -/
def Obligations.HostSeesExactlyThePromisedResponses : Prop :=
  ∀ (s : State) (ps : List Pins), AllEmpty s → s.resetSeen = true → s.drive = ps →
    observe ps.length s = (promised (s.edgeCount + 1) ps).filter (fun v => v.edge ≤ s.edgeCount + ps.length) ∧
    (promised (s.edgeCount + 1) ps).Pairwise fun v w => v.edge < w.edge

/-- From State.reset, requests issued back to back are all accepted and all answered, one an edge with no gap (R179), each sampled
LATENCY edges after its own (R178, R45).  The edge numbers count from the 0 that State.reset has, the model's choice (assumption 5,
DESIGN CHOICE). -/
def Obligations.BackToBackRequestsAllAnswer : Prop :=
  ∀ rs : List Request,
    observe (rs.length + Config.latency)
        { State.reset with drive := rs.map .request ++ List.replicate Config.latency .idle } =
      rs.mapIdx fun k r => ⟨k + 1 + Config.latency, requestResponse r⟩

/-- R46: the response to a request does not depend on what is in flight, on what came before, or on what follows. -/
def Obligations.ResponseIndependentOfOtherRequests : Prop :=
  ∀ (s₁ s₂ : State) (p₁ p₂ : Pins) (ps₁ ps₂ : List Pins),
    s₁.drive = p₁ :: ps₁ → s₂.drive = p₂ :: ps₂ →
    Config.latency - 1 ≤ ps₁.length → Config.latency - 1 ≤ ps₂.length →
    s₁.resetSeen = true → s₂.resetSeen = true → p₁.accepts = true → p₂.accepts = true → p₁.req = p₂.req →
    noResetInFlight ps₁ = true → noResetInFlight ps₂ = true →
      ∃ t₁ t₂ : State, Host.Core.run core Config.latency s₁ = .next t₁ ∧
        Host.Core.run core Config.latency s₂ = .next t₂ ∧
        t₁.outValid = true ∧ t₂.outValid = true ∧ t₁.outPorts = t₂.outPorts

/-- Every step keeps: each full slot holds the response of some request (R20). -/
def Obligations.StepKeepsSlotsHoldResponses : Prop :=
  ∀ s t : State, SlotsHoldResponses s → step s = .next t → SlotsHoldResponses t

/-- The invariant holds at reset, and at power-up whatever is drawn. -/
def Obligations.SlotsHoldResponsesFromReset : Prop :=
  SlotsHoldResponses State.reset ∧ ∀ draw : Vector Slot Config.latency, SlotsHoldResponses (State.powerUp draw)

/-- A run whose requests are all legal shows no response with err = 1 (R150, R151). -/
def Obligations.LegalRunsAreErrorFree : Prop :=
  ∀ (s : State) (ps : List Pins), AllEmpty s → s.drive = ps → LegalLines ps → ErrorFree (observe ps.length s)

/-- R20: "The slot abstraction therefore gives the same responses at the same edges as the staged hardware": after any sequence of
edges from reset, the staged output register (R26 to R29, R183) and slot[LATENCY-1] agree.  The side-band's layout is the model's
choice (assumption 4, DESIGN CHOICE). -/
def Obligations.StagedHardwareMatchesTheSlots : Prop :=
  ∀ ps : List Pins, ∃ t : State,
    Host.Core.run core ps.length { State.reset with drive := ps } = .next t ∧
    (Staged.reset.run ps).shows = t.lastSlot

/-- Every edge keeps: each slot holds the response that its stage's registers will give (R20, R27, R177).  From any matching pair, so in
states no run reaches too.  The side-band's layout is the model's choice (assumption 4, DESIGN CHOICE). -/
def Obligations.EveryEdgeKeepsStagesAndSlotsMatching : Prop :=
  ∀ (h : Staged) (s t : State), h.Matches s → s.resetSeen = true → step s = .next t →
    (h.edge s.nextPins).Matches t

/-- After a reset the staged registers and the slots match, and matching machines show the same response (R34, R33).  The side-band's
layout is the model's choice (assumption 4, DESIGN CHOICE). -/
def Obligations.StagesAndSlotsMatchAtReset : Prop :=
  Staged.reset.Matches State.reset ∧ ∀ (h : Staged) (s : State), h.Matches s → h.shows = s.lastSlot

/-! ### Errors and the frame -/

/-- The frame of every operation, and that every one completes on every state: the response enters slot[0], every other slot advances
unchanged, and nothing else changes but the edge's number (R9, R153, R177). -/
def Obligations.EveryOperationOnlyEntersItsResponse : Prop :=
  ∀ (i : Instr) (s : State), ∃ t : State, exec i s = .next t ∧
    t.slots[0]'Config.latency_pos = .full (responseOf i) ∧
    (∀ (k : Nat) (h : k + 1 < Config.latency), t.slots[k + 1] = s.slots[k]) ∧
    t.resetSeen = s.resetSeen ∧ t.drive = s.drive ∧ t.edgeCount = s.edgeCount + 1

/-- R150: exactly two conditions give an error response, each with its cause and code. -/
def Obligations.ErrorResponsesHaveExactlyTwoCauses : Prop :=
  ∀ r : Request,
    ((requestResponse r).err = true ↔
      9 ≤ r.op.toNat ∨ (r.op = 0x3#4 ∧ (r.c.toNat = 0 ∨ 64 ≤ r.c.toNat))) ∧
    ((requestResponse r).fault = some .reservedOp ↔ 9 ≤ r.op.toNat) ∧
    ((requestResponse r).fault = some .rndShiftRange ↔ r.op = 0x3#4 ∧ (r.c.toNat = 0 ∨ 64 ≤ r.c.toNat)) ∧
    (requestResponse r).op = r.op ∧ Fault.reservedOp.code = 1 ∧ Fault.rndShiftRange.code = 2

/-- An error response carries no partial result: err = 1, the op echoed, r0 = r1 = r2 = 0 (R151, R152). -/
def Obligations.ErrorResponseCarriesNoResult : Prop :=
  ∀ r : Request, (requestResponse r).err = true → requestResponse r = ⟨true, r.op, 0#32, 0#32, 0#32⟩

/-- Every response echoes its request's op, reserved codes included, and its unused fields are 0 (R51, R54). -/
def Obligations.ResponsesEchoOpAndZeroUnusedFields : Prop :=
  ∀ r : Request, (requestResponse r).op = r.op ∧
    (3 ≤ r.op.toNat → (requestResponse r).r2 = 0#32) ∧
    (r.op = 0x4#4 ∨ r.op = 0x6#4 ∨ r.op = 0x7#4 → (requestResponse r).r1 = 0#32) ∧
    (r.op = 0x2#4 → (requestResponse r).r2.toNat ≤ 3) ∧
    (r.op = 0x6#4 → (requestResponse r).r0.toNat < 2 ^ 16) ∧
    (r.op = 0x7#4 → (requestResponse r).r0.toNat < 2 ^ 24)

/-- R55: a reserved code is accepted like any other request; it takes one slot and gives one error response, and the machine goes on. -/
def Obligations.ReservedCodesAnswerAnError : Prop :=
  ∀ s : State,
    exec .reserved9 s = .next (s.clock (.full ⟨true, 0x9#4, 0#32, 0#32, 0#32⟩)) ∧
    (∀ op : Opcode, op = 0xA#4 ∨ op = 0xB#4 →
      exec (.reservedAB op) s = .next (s.clock (.full ⟨true, op, 0#32, 0#32, 0#32⟩))) ∧
    (∀ op : Opcode, 0xC ≤ op.toNat →
      exec (.reservedCF op) s = .next (s.clock (.full ⟨true, op, 0#32, 0#32, 0#32⟩))) ∧
    ∀ r : Request, 9 ≤ r.op.toNat →
      exec (decode r.toWord) s = .next (s.clock (.full ⟨true, r.op, 0#32, 0#32, 0#32⟩))

/-! ### Rounding -/

/-- R73: RND answers the rounded value for bits 1 to 63, and the error response for every other c. -/
def Obligations.RndAnswersTheRoundedValue : Prop :=
  (∀ c b a : Word, decode (Request.toWord ⟨0x3#4, c, b, a⟩) = .rnd (b ++ a) c) ∧
  ∀ (value : Wide) (bits : Word) (s : State),
    (1 ≤ bits.toNat ∧ bits.toNat ≤ 63 →
      exec (.rnd value bits) s = .next (s.clock (.full
        ⟨false, 0x3#4, 0#32,
          BitVec.ofInt 32 (Reference.round value.toInt bits.toNat / 2 ^ 32),
          BitVec.ofInt 32 (Reference.round value.toInt bits.toNat)⟩))) ∧
    (bits.toNat < 1 ∨ 63 < bits.toNat →
      exec (.rnd value bits) s = .next (s.clock (.full ⟨true, 0x3#4, 0#32, 0#32, 0#32⟩)))

/-- For bits 1 to 63 the 64-bit unit gives asr(value, bits) + value[bits-1] (R70).  The rest are inferences the spec marks [derived] in R70
and R72: that this is floor(value / 2^bits + 1/2), that it lies in [-2^62, 2^62] so that nothing wraps, and that a sign-extended 32-bit
value keeps its value. -/
def Obligations.RoundShiftIsExactRoundHalfUp : Prop :=
  (∀ (value : Wide) (bits : Nat), 1 ≤ bits → bits ≤ 63 →
    (roundShift value bits).toInt = Reference.round value.toInt bits ∧
    (roundShift value bits).toInt = (2 * value.toInt + 2 ^ bits) / 2 ^ (bits + 1) ∧
    -2 ^ 62 ≤ (roundShift value bits).toInt ∧ (roundShift value bits).toInt ≤ 2 ^ 62) ∧
  ∀ v : Word, (sextWide v).toInt = v.toInt

/-! ### The engine -/

/-- R81 to R84, R86, R87: at every stage the 32-bit registers hold what the integer pseudocode gives, with its wraps. -/
def Obligations.EngineStagesFollowThePseudocode : Prop :=
  ∀ (m : Mode) (t : Triple) (n : Nat), n ≤ 24 →
    let u := Reference.stage (Reference.wrap 32) m ⟨t.x.toInt, t.y.toInt, t.z.toInt⟩ n
    (stage m t n).x.toInt = u.x ∧ (stage m t n).y.toInt = u.y ∧ (stage m t n).z.toInt = u.z

/-- R89: ROT answers (x24, y24, z24) of the engine in ROTATION mode on the request's a, b and c. -/
def Obligations.RotAnswersTheRotationTriple : Prop :=
  (∀ c b a : Word, decode (Request.toWord ⟨0x0#4, c, b, a⟩) = .rot a b c) ∧
  ∀ (x0 y0 z0 : Word) (s : State),
    let u := Reference.cordic .rotation x0.toInt y0.toInt z0.toInt
    exec (.rot x0 y0 z0) s = .next (s.clock (.full
      ⟨false, 0x0#4, BitVec.ofInt 32 u.z, BitVec.ofInt 32 u.y, BitVec.ofInt 32 u.x⟩))

/-- R90: VEC answers (x24, y24, z24) of the engine in VECTOR mode on the request's a, b and c. -/
def Obligations.VecAnswersTheVectorTriple : Prop :=
  (∀ c b a : Word, decode (Request.toWord ⟨0x1#4, c, b, a⟩) = .vec a b c) ∧
  ∀ (x0 y0 z0 : Word) (s : State),
    let u := Reference.cordic .vectoring x0.toInt y0.toInt z0.toInt
    exec (.vec x0 y0 z0) s = .next (s.clock (.full
      ⟨false, 0x1#4, BitVec.ofInt 32 u.z, BitVec.ofInt 32 u.y, BitVec.ofInt 32 u.x⟩))

/-- R117: on the composed vector paths (samples folded or reflected, z0 = 0) the engine's inputs are at most 32768 in size, and no register
wraps at any stage. -/
def Obligations.ComposedVectorPathsNeverWrap : Prop :=
  (∀ (x y : Sample),
    |(foldedSamples x y).x.toInt| ≤ 32768 ∧ |(foldedSamples x y).y.toInt| ≤ 32768 ∧
    |(magStart x y).x.toInt| ≤ 32768 ∧ |(magStart x y).y.toInt| ≤ 32768) ∧
  ∀ (x y : Word) (n : Nat), |x.toInt| ≤ 32768 → |y.toInt| ≤ 32768 → n ≤ 24 →
    let t := stage .vectoring ⟨x, y, 0#32⟩ n
    let u := Reference.stage id .vectoring ⟨x.toInt, y.toInt, 0⟩ n
    t.x.toInt = u.x ∧ t.y.toInt = u.y ∧ t.z.toInt = u.z ∧
      |u.x| < 2 ^ 19 ∧ |u.y| < 2 ^ 19 ∧ |u.z| ≤ 9309768

/-- R143: SINCOS24's engine call starts inside the convergence range and keeps |x|, |y| < 2^18, so no register wraps. -/
def Obligations.SinCosPathNeverWraps : Prop :=
  ∀ (theta : Angle) (n : Nat), n ≤ 24 →
    let z0 := (sinCosStart theta).z.toInt
    let t := stage .rotation (sinCosStart theta) n
    let u := Reference.stage id .rotation ⟨39797, 0, z0⟩ n
    0 ≤ z0 ∧ z0 ≤ 0x7FFFFE ∧
      t.x.toInt = u.x ∧ t.y.toInt = u.y ∧ t.z.toInt = u.z ∧ |u.x| < 2 ^ 18 ∧ |u.y| < 2 ^ 18

/-- R21: each of the 24 table entries is 2^24 · atan(2^-i) / π rounded to the nearest integer. -/
def Obligations.AngleTableIsRoundedArctangents : Prop :=
  angleTable.length = 24 ∧
  ∀ i : Nat, i < 24 →
    |((angleEntry i).toNat : ℝ) - 2 ^ 24 * Real.arctan ((2 : ℝ)⁻¹ ^ i) / Real.pi| < 1 / 2

/-- The table's decimal values and their sum, 9309768 (R22). -/
def Obligations.AngleTableValuesAndSum : Prop :=
  angleTable.map (fun v => v.toInt) = Reference.table ∧ (angleTable.map BitVec.toNat).sum = 9309768 ∧
    ∀ v ∈ angleTable, v.toNat < 2 ^ 23

/-- G is the nearest integer to 2^16 over the gain of 24 iterations, the product of sqrt(1 + 2^-2i) (R24). -/
def Obligations.GainConstantIsNearestReciprocalGain : Prop :=
  gain = 39797 ∧
  |(gain : ℝ) - 2 ^ 16 / ∏ i ∈ Finset.range 24, Real.sqrt (1 + (4 : ℝ)⁻¹ ^ i)| < 1 / 2

/-! ### The normalizer -/

/-- R103: QNORM answers (x', y', q) of QN on the request's a and b, with negations that wrap. -/
def Obligations.QnormAnswersTheFold : Prop :=
  (∀ c b a : Word, decode (Request.toWord ⟨0x2#4, c, b, a⟩) = .qnorm a b) ∧
  ∀ (x y : Word) (s : State),
    let f := Reference.QN x.toInt y.toInt
    exec (.qnorm x y) s = .next (s.clock (.full
      ⟨false, 0x2#4, BitVec.ofNat 32 f.2.2, BitVec.ofInt 32 f.2.1, BitVec.ofInt 32 f.1⟩))

/-- R102: off (0, 0) and off -2^31 the folded vector has x' > 0 and y' ≥ 0 (y' > 0 off the axes), and turning it back by q quarter turns
gives the input. -/
def Obligations.FoldedVectorTurnsBackByItsQuadrant : Prop :=
  ∀ x y : Word, ¬(x = 0#32 ∧ y = 0#32) → x.toInt ≠ -2 ^ 31 → y.toInt ≠ -2 ^ 31 →
    let f := normalize x y
    0 < f.x.toInt ∧ 0 ≤ f.y.toInt ∧ (x ≠ 0#32 → y ≠ 0#32 → 0 < f.y.toInt) ∧
      (f.q = 0#2 → x.toInt = f.x.toInt ∧ y.toInt = f.y.toInt) ∧
      (f.q = 1#2 → x.toInt = -f.y.toInt ∧ y.toInt = f.x.toInt) ∧
      (f.q = 2#2 → x.toInt = -f.x.toInt ∧ y.toInt = -f.y.toInt) ∧
      (f.q = 3#2 → x.toInt = f.y.toInt ∧ y.toInt = -f.x.toInt)

/-! ### Magnitude -/

/-- R119: MAG answers round(P, 16), P the gain product of the reflected samples.  That the result lies below 2^16 is an inference the spec
marks [derived] in R119. -/
def Obligations.MagAnswersTheRoundedProduct : Prop :=
  (∀ c b a : Word, decode (Request.toWord ⟨0x4#4, c, b, a⟩) = .mag (a.extractLsb' 0 16) (b.extractLsb' 0 16)) ∧
  ∀ (x y : Sample) (s : State),
    exec (.mag x y) s = .next (s.clock (.full
      ⟨false, 0x4#4, 0#32, 0#32, BitVec.ofInt 32 (Reference.round (Reference.magProduct x.toInt y.toInt) 16)⟩)) ∧
    0 ≤ Reference.round (Reference.magProduct x.toInt y.toInt) 16 ∧
    Reference.round (Reference.magProduct x.toInt y.toInt) 16 < 2 ^ 16

/-- R120: MAGW answers the unrounded product P in {r1, r0}.  That P lies in [0, 2^32), and so that r1 is 0 for every input, is an inference
the spec marks [derived] in R118. -/
def Obligations.MagwAnswersTheProduct : Prop :=
  (∀ c b a : Word, decode (Request.toWord ⟨0x5#4, c, b, a⟩) = .magw (a.extractLsb' 0 16) (b.extractLsb' 0 16)) ∧
  ∀ (x y : Sample) (s : State),
    exec (.magw x y) s = .next (s.clock (.full
      ⟨false, 0x5#4, 0#32, 0#32, BitVec.ofInt 32 (Reference.magProduct x.toInt y.toInt)⟩)) ∧
    0 ≤ Reference.magProduct x.toInt y.toInt ∧ Reference.magProduct x.toInt y.toInt < 2 ^ 32

/-- R118: from the reflected samples x never decreases in VECTOR mode, and it ends in [0, 76370). -/
def Obligations.MagnitudeGrowsAndStaysBounded : Prop :=
  ∀ x y : Sample,
    (∀ n : Nat, n < 24 →
      (stage .vectoring (magStart x y) n).x.toInt ≤ (stage .vectoring (magStart x y) (n + 1)).x.toInt) ∧
    0 ≤ (cordic .vectoring (magStart x y)).x.toInt ∧ (cordic .vectoring (magStart x y)).x.toInt < 76370

/-- MAG and MAGW do not change when either sample changes sign (R119). -/
def Obligations.MagnitudeUnchangedBySigns : Prop :=
  ∀ (x y : Sample) (s : State),
    exec (.mag (-x) y) s = exec (.mag x y) s ∧ exec (.mag x (-y)) s = exec (.mag x y) s ∧
    exec (.magw (-x) y) s = exec (.magw x y) s ∧ exec (.magw x (-y)) s = exec (.magw x y) s

/-- MAG's result is rebuilt from MAGW's by `RND {r1, r0}, 16` (R120). -/
def Obligations.RndOfMagwRebuildsMag : Prop :=
  ∀ x y : Sample,
    (rndResponse ((magwResponse x y).r1 ++ (magwResponse x y).r0) 16#32).r0 = (magResponse x y).r0 ∧
    (rndResponse ((magwResponse x y).r1 ++ (magwResponse x y).r0) 16#32).r1 = (magResponse x y).r1

/-! ### Phase -/

/-- R113, R112: PHASE16 answers the axis result or the composed engine angle, zero-extended. -/
def Obligations.Phase16AnswersTheComposedAngle : Prop :=
  (∀ c b a : Word,
    decode (Request.toWord ⟨0x6#4, c, b, a⟩) = .phase16 (a.extractLsb' 0 16) (b.extractLsb' 0 16)) ∧
  ∀ (x y : Sample) (s : State),
    exec (.phase16 x y) s = .next (s.clock (.full
      ⟨false, 0x6#4, 0#32, 0#32, BitVec.ofNat 32 (Reference.phase16 x.toInt y.toInt)⟩)) ∧
    Reference.phase16 x.toInt y.toInt < 2 ^ 16

/-- R115: PHASE24 answers the axis result or the composed engine angle, zero-extended. -/
def Obligations.Phase24AnswersTheComposedAngle : Prop :=
  (∀ c b a : Word,
    decode (Request.toWord ⟨0x7#4, c, b, a⟩) = .phase24 (a.extractLsb' 0 16) (b.extractLsb' 0 16)) ∧
  ∀ (x y : Sample) (s : State),
    exec (.phase24 x y) s = .next (s.clock (.full
      ⟨false, 0x7#4, 0#32, 0#32, BitVec.ofNat 32 (Reference.phase24 x.toInt y.toInt)⟩)) ∧
    Reference.phase24 x.toInt y.toInt < 2 ^ 24

/-- R111: the axis special cases of both arctangents, and the engine path for every other input. -/
def Obligations.AxisInputsGiveExactPhases : Prop :=
  ∀ x y : Sample,
    let p16 := (phase16Response x y).r0
    let p24 := (phase24Response x y).r0
    (x.toInt = 0 → y.toInt = 0 → p16 = 0#32 ∧ p24 = 0#32) ∧
    (x.toInt = 0 → 0 < y.toInt → p16 = 16384#32 ∧ p24 = 0x400000#32) ∧
    (x.toInt = 0 → y.toInt < 0 → p16 = 49152#32 ∧ p24 = 0xC00000#32) ∧
    (y.toInt = 0 → 0 < x.toInt → p16 = 0#32 ∧ p24 = 0x000000#32) ∧
    (y.toInt = 0 → x.toInt < 0 → p16 = 32768#32 ∧ p24 = 0x800000#32) ∧
    (x.toInt ≠ 0 → y.toInt ≠ 0 →
      p16 = BitVec.ofNat 32 (Reference.phase16Path x.toInt y.toInt) ∧
      p24 = BitVec.ofNat 32 (Reference.phase24Path x.toInt y.toInt))

/-- R114: off (0, 0), PHASE16's result lies in the range of its input's quadrant, and off the axes its low 14 bits are those of the
rounded engine angle. -/
def Obligations.Phase16StaysInItsQuadrant : Prop :=
  ∀ x y : Sample, ¬(x = 0#16 ∧ y = 0#16) →
    let f := foldedSamples x y
    let p := (phase16Response x y).r0.toNat
    f.q.toNat * 16384 ≤ p ∧ p ≤ f.q.toNat * 16384 + 16383 ∧
      (x ≠ 0#16 → y ≠ 0#16 →
        (p % 16384 : Int) = Reference.round (vectorAngle f).toInt 9 % 16384)

/-! ### Sine and cosine -/

/-- R144: SINCOS24 answers (cos, sin) of the folded rotation (R141) with the truth table's signs (R142).  That both are below 2^18 in size is
an inference the spec marks [derived] in R143. -/
def Obligations.Sincos24AnswersCosAndSin : Prop :=
  (∀ c b a : Word, decode (Request.toWord ⟨0x8#4, c, b, a⟩) = .sincos24 (a.extractLsb' 0 24)) ∧
  ∀ (theta : Angle) (s : State),
    let u := Reference.sinCos theta.toNat
    exec (.sincos24 theta) s = .next (s.clock (.full
      ⟨false, 0x8#4, 0#32, BitVec.ofInt 32 u.2, BitVec.ofInt 32 u.1⟩)) ∧
    |u.1| < 2 ^ 18 ∧ |u.2| < 2 ^ 18

/-- The truth table's symmetries (R141, R142): half a turn on negates both results, and the mirrored angle 0xFFFFFF - theta negates the
sine alone. -/
def Obligations.Sincos24HalfTurnAndMirror : Prop :=
  ∀ theta : Angle,
    let r := sincos24Response theta
    let h := sincos24Response (theta + 0x800000#24)
    let m := sincos24Response (0xFFFFFF#24 - theta)
    h.r0 = -r.r0 ∧ h.r1 = -r.r1 ∧ m.r0 = r.r0 ∧ m.r1 = -r.r1

/-- R140: theta is a[23:0], so theta and theta + k·2^24 give the same response, whatever b and c hold. -/
def Obligations.Sincos24WrapsAtAFullTurn : Prop :=
  (∀ c b a : Word, decode (Request.toWord ⟨0x8#4, c, b, a⟩) = .sincos24 (BitVec.ofNat 24 (a.toNat % 2 ^ 24))) ∧
  ∀ (c b a c' b' k : Word),
    requestResponse ⟨0x8#4, c, b, a⟩ = requestResponse ⟨0x8#4, c', b', a + k * 0x1000000#32⟩
end

