-- ==== Sys2Proof/Laws/Engine.lean ====
section
/-! SUPPORT. The engine's small lemmas: how stages compose, and the bit-vector shift and sums as the integer operations of R7. -/

namespace Sys2Proof.Machine

@[simp] theorem stage_zero (m : Mode) (t : Triple) : stage m t 0 = t := rfl

theorem stage_succ (m : Mode) (t : Triple) (n : Nat) : stage m t (n + 1) = iterate m n (stage m t n) := rfl

theorem cordic_eq_stage (m : Mode) (t : Triple) : cordic m t = stage m t 24 := rfl

/-- The update when d = 1 (R82). -/
theorem iterate_of_decision {m : Mode} {t : Triple} (i : Nat) (h : decision m t = true) :
    iterate m i t = ⟨t.x + t.y.sshiftRight i, t.y - t.x.sshiftRight i, t.z + angleEntry i⟩ := by
  simp [iterate, h]

/-- The update when d = 0 (R83). -/
theorem iterate_of_not_decision {m : Mode} {t : Triple} (i : Nat) (h : decision m t = false) :
    iterate m i t = ⟨t.x - t.y.sshiftRight i, t.y + t.x.sshiftRight i, t.z - angleEntry i⟩ := by
  simp [iterate, h]

/-- For ops 0x0 and 0x1, op[0] is the engine's mode bit (R28, R52). -/
theorem op_low_bit_is_mode (x0 y0 z0 : Word) :
    (Instr.rot x0 y0 z0).op.extractLsb' 0 1 = Mode.rotation.bit ∧
    (Instr.vec x0 y0 z0).op.extractLsb' 0 1 = Mode.vectoring.bit := ⟨rfl, rfl⟩

/-- An arithmetic shift right is the floor of the quotient (R7, R87). -/
theorem toInt_sshiftRight_eq_div {n : Nat} (v : BitVec n) (k : Nat) : (v.sshiftRight k).toInt = v.toInt / 2 ^ k := by
  rw [BitVec.toInt_sshiftRight, Int.shiftRight_eq_div_pow]
  norm_cast

/-- The halves of `{b, a}` (R53, R54). -/
@[simp] theorem lowWord_append (b a : Word) : lowWord (b ++ a) = a := by
  ext i hi
  have h := BitVec.getLsbD_append (x := b) (y := a) (i := i)
  simp only [hi] at h
  simpa [lowWord, hi] using h

@[simp] theorem highWord_append (b a : Word) : highWord (b ++ a) = b := by
  ext i hi
  have h := BitVec.getLsbD_append (x := b) (y := a) (i := 32 + i)
  simp only [show ¬(32 + i < 32) by omega, Nat.add_sub_cancel_left] at h
  simpa [highWord, hi] using h

/-- A sample keeps its value in a 32-bit register (R110). -/
theorem toInt_sextSample (v : Sample) : (sextSample v).toInt = v.toInt := by
  simp [sextSample, BitVec.toInt_signExtend_of_le]

end Sys2Proof.Machine
end

