-- ==== Sys2Proof/Laws/State.lean ====
section
/-! SUPPORT. One lemma per field for each way a state is built, each true by one unfolding. -/

namespace Sys2Proof.Machine

@[simp] theorem State.clock_resetSeen (x : Slot) (s : State) : (s.clock x).resetSeen = s.resetSeen := by simp only [State.clock]
@[simp] theorem State.clock_edgeCount (x : Slot) (s : State) : (s.clock x).edgeCount = s.edgeCount + 1 := by simp only [State.clock]
@[simp] theorem State.clock_drive (x : Slot) (s : State) : (s.clock x).drive = s.drive := by simp only [State.clock]

@[simp] theorem State.clear_slots (s : State) : s.clear.slots = Vector.replicate Config.latency .empty := rfl
@[simp] theorem State.clear_resetSeen (s : State) : s.clear.resetSeen = true := rfl
@[simp] theorem State.clear_edgeCount (s : State) : s.clear.edgeCount = s.edgeCount + 1 := rfl
@[simp] theorem State.clear_drive (s : State) : s.clear.drive = s.drive := rfl

@[simp] theorem State.dropPins_slots (s : State) : s.dropPins.slots = s.slots := rfl
@[simp] theorem State.dropPins_resetSeen (s : State) : s.dropPins.resetSeen = s.resetSeen := rfl
@[simp] theorem State.dropPins_edgeCount (s : State) : s.dropPins.edgeCount = s.edgeCount := rfl
@[simp] theorem State.dropPins_drive (s : State) : s.dropPins.drive = s.drive.tail := rfl

@[simp] theorem State.driveWord_slots (s : State) (w : BitVec 100) : (s.driveWord w).slots = s.slots := rfl
@[simp] theorem State.driveWord_resetSeen (s : State) (w : BitVec 100) : (s.driveWord w).resetSeen = true := rfl
@[simp] theorem State.driveWord_edgeCount (s : State) (w : BitVec 100) : (s.driveWord w).edgeCount = s.edgeCount := rfl
@[simp] theorem State.driveWord_drive (s : State) (w : BitVec 100) :
    (s.driveWord w).drive = .request (Request.ofWord w) :: s.drive.tail := rfl

@[simp] theorem State.reset_slots : State.reset.slots = Vector.replicate Config.latency .empty := rfl
@[simp] theorem State.reset_resetSeen : State.reset.resetSeen = true := rfl
@[simp] theorem State.reset_edgeCount : State.reset.edgeCount = 0 := rfl
@[simp] theorem State.reset_drive : State.reset.drive = [] := rfl

@[simp] theorem State.powerUp_slots (d : Vector Slot Config.latency) : (State.powerUp d).slots = d := rfl
@[simp] theorem State.powerUp_resetSeen (d : Vector Slot Config.latency) : (State.powerUp d).resetSeen = false := rfl
@[simp] theorem State.powerUp_edgeCount (d : Vector Slot Config.latency) : (State.powerUp d).edgeCount = 0 := rfl
@[simp] theorem State.powerUp_drive (d : Vector Slot Config.latency) : (State.powerUp d).drive = [] := rfl

end Sys2Proof.Machine
end

