-- ==== Sys2Proof/Laws/Ops.lean ====
section
/-! SUPPORT. What each shared operation can do, said once. -/

namespace Sys2Proof.Machine

/-- `clock` puts the entering slot first. -/
@[simp] theorem State.clock_slot_zero (x : Slot) (s : State) (h : 0 < Config.latency) :
    (s.clock x).slots[0]'h = x := by
  simp [State.clock]

/-- `clock` moves every slot on by one. -/
@[simp] theorem State.clock_slot_succ (x : Slot) (s : State) (k : Nat) (h : k + 1 < Config.latency) :
    (s.clock x).slots[k + 1]'h = s.slots[k]'(by omega) := by
  simp [State.clock]

/-- After `clear` every slot is `Empty`. -/
theorem State.clear_slot (s : State) (k : Nat) (h : k < Config.latency) : s.clear.slots[k]'h = .empty := by
  simp

/-- An accepted request has one outcome. -/
theorem accept_next_iff {rsp : Response} {s t : State} : accept rsp s = .next t ↔ t = s.clock (.full rsp) := by
  simp [accept, eq_comm]

@[simp] theorem respond_err (op : Opcode) (a b c : Word) : (respond op a b c).err = false := rfl
@[simp] theorem respond_op (op : Opcode) (a b c : Word) : (respond op a b c).op = op := rfl
@[simp] theorem respond_r0 (op : Opcode) (a b c : Word) : (respond op a b c).r0 = a := rfl
@[simp] theorem respond_r1 (op : Opcode) (a b c : Word) : (respond op a b c).r1 = b := rfl
@[simp] theorem respond_r2 (op : Opcode) (a b c : Word) : (respond op a b c).r2 = c := rfl

@[simp] theorem raiseErr_err (f : Fault) (op : Opcode) : (raiseErr f op).err = true := rfl
@[simp] theorem raiseErr_op (f : Fault) (op : Opcode) : (raiseErr f op).op = op := rfl
@[simp] theorem raiseErr_r0 (f : Fault) (op : Opcode) : (raiseErr f op).r0 = 0#32 := rfl
@[simp] theorem raiseErr_r1 (f : Fault) (op : Opcode) : (raiseErr f op).r1 = 0#32 := rfl
@[simp] theorem raiseErr_r2 (f : Fault) (op : Opcode) : (raiseErr f op).r2 = 0#32 := rfl

/-- Each arm of `exec` accepts its own response and does nothing else. -/
theorem exec_eq_accept (i : Instr) (s : State) : exec i s = accept (responseOf i) s := by
  cases i <;> rfl

/-- The slot that enters at an edge with `rst` = 0. -/
theorem edge_of_no_reset {p : Pins} {s : State} (hr : p.rst = false) (hs : s.resetSeen = true) :
    edge p s = .next (s.clock (if p.inValid then .full (requestResponse p.req) else .empty)) := by
  cases hv : p.inValid <;> simp [edge, hr, hs, hv, exec_eq_accept, accept, requestResponse]

/-- An edge with `rst` = 1. -/
theorem edge_of_reset {p : Pins} {s : State} (hr : p.rst = true) : edge p s = .next s.clear := by
  simp [edge, hr]

/-- Everything an edge can do. -/
theorem edge_cases (p : Pins) (s : State) :
    (p.rst = true ∧ edge p s = .next s.clear) ∨
    (p.accepts = true ∧ s.resetSeen = true ∧ edge p s = .next (s.clock (.full (requestResponse p.req)))) ∨
    (p.rst = false ∧ p.inValid = false ∧ s.resetSeen = true ∧ edge p s = .next (s.clock .empty)) ∨
    (p.rst = false ∧ s.resetSeen = false ∧ edge p s = .refused .noResetSincePowerUp) := by
  cases hr : p.rst <;> cases hv : p.inValid <;> cases hs : s.resetSeen <;>
    simp [edge, hr, hv, hs, Pins.accepts, Pins.inReady, exec_eq_accept, accept, requestResponse]

/-- The lines of a non-empty drive list are taken in order. -/
theorem State.nextPins_of_cons {s : State} {p : Pins} {ps : List Pins} (h : s.drive = p :: ps) :
    s.nextPins = p := by
  simp [State.nextPins, h]

/-- With no line left the host drives IDLE (assumption 2). -/
theorem State.nextPins_of_nil {s : State} (h : s.drive = []) : s.nextPins = .idle := by
  simp [State.nextPins, h]

end Sys2Proof.Machine
end

