-- ==== Sys2Proof/Laws/PerInstr.lean ====
section
/-! SUPPORT. Statements for all instructions, one lemma per constructor. -/

namespace Sys2Proof.Laws.EncodedOpcode

/-- The op field of an instruction's request is its operation code (R50, R52). -/
def Statement (i : Instr) : Prop :=
  (encodeRequest i).op = i.op

theorem rot (x0 y0 z0 : Word) : Statement (.rot x0 y0 z0) := rfl
theorem vec (x0 y0 z0 : Word) : Statement (.vec x0 y0 z0) := rfl
theorem qnorm (x y : Word) : Statement (.qnorm x y) := rfl
theorem rnd (value : Wide) (bits : Word) : Statement (.rnd value bits) := rfl
theorem mag (x y : Sample) : Statement (.mag x y) := rfl
theorem magw (x y : Sample) : Statement (.magw x y) := rfl
theorem phase16 (x y : Sample) : Statement (.phase16 x y) := rfl
theorem phase24 (x y : Sample) : Statement (.phase24 x y) := rfl
theorem sincos24 (theta : Angle) : Statement (.sincos24 theta) := rfl
theorem reserved9 : Statement .reserved9 := rfl
theorem reservedAB (op : Opcode) : Statement (.reservedAB op) := rfl
theorem reservedCF (op : Opcode) : Statement (.reservedCF op) := rfl

end Sys2Proof.Laws.EncodedOpcode
end

