-- ==== Sys2Proof/Laws/Run.lean ====
section
/-! SUPPORT. Steps after a reset as one total function of the state, and how a slot travels.  Cite these instead of unfolding `step`:
asking Lean to compare two clocked states by unfolding makes it compare 27 slots. -/

namespace Sys2Proof.Machine

/-- The state after an edge under `p`, once a reset has been seen. -/
def State.after (s : State) (p : Pins) : State :=
  if p.rst then s.dropPins.clear
  else s.dropPins.clock (if p.inValid then .full (requestResponse p.req) else .empty)

theorem step_eq_after {s : State} (hs : s.resetSeen = true) : step s = .next (s.after s.nextPins) := by
  unfold State.after step
  cases h : s.nextPins.rst
  · rw [edge_of_no_reset h (by simpa)]
    simp
  · rw [edge_of_reset h]
    simp

theorem State.after_resetSeen {s : State} (p : Pins) (hs : s.resetSeen = true) : (s.after p).resetSeen = true := by
  unfold State.after
  split <;> simp [hs]

@[simp] theorem State.after_drive (s : State) (p : Pins) : (s.after p).drive = s.drive.tail := by
  unfold State.after
  split <;> simp

@[simp] theorem State.after_edgeCount (s : State) (p : Pins) : (s.after p).edgeCount = s.edgeCount + 1 := by
  unfold State.after
  split <;> simp

theorem State.after_slot_zero {s : State} {p : Pins} (h : p.rst = false) :
    (s.after p).slots[0]'Config.latency_pos = if p.inValid then .full (requestResponse p.req) else .empty := by
  simp [State.after, h]

theorem State.after_slot_succ {s : State} {p : Pins} (h : p.rst = false) (k : Nat) (hk : k + 1 < Config.latency) :
    (s.after p).slots[k + 1]'hk = s.slots[k]'(by omega) := by
  simp [State.after, h]

theorem State.after_slot_of_reset {s : State} {p : Pins} (h : p.rst = true) (k : Nat) (hk : k < Config.latency) :
    (s.after p).slots[k]'hk = .empty := by
  simp [State.after, h]

/-- One step of a run. -/
theorem run_succ {s t : State} (n : Nat) (h : step s = .next t) :
    Host.Core.run core (n + 1) s = Host.Core.run core n t := by
  simp only [Host.Core.run, core, h]

/-- Before the first reset the host samples nothing (assumption 6). -/
theorem State.sighting_before_reset {s : State} (hs : s.resetSeen = false) : s.sighting = [] := by
  simp [State.sighting, hs]

theorem State.sighting_of_empty {s : State} (h : s.lastSlot = .empty) : s.sighting = [] := by
  simp [State.sighting, h]

theorem State.sighting_of_full {s : State} {rsp : Response} (hs : s.resetSeen = true) (h : s.lastSlot = .full rsp) :
    s.sighting = [⟨s.edgeCount + 1, rsp⟩] := by
  simp [State.sighting, hs, h]

/-- One edge of an observation. -/
theorem observe_succ {s : State} (n : Nat) (hs : s.resetSeen = true) :
    observe (n + 1) s = s.sighting ++ observe n (s.after s.nextPins) := by
  rw [observe, step_eq_after hs]

/-- While no line drives `rst`, a slot's content moves on by one slot an edge. -/
theorem slot_carried (m : Nat) : ∀ (s : State) (k : Nat) (hk : k + m < Config.latency), s.resetSeen = true →
    m ≤ s.drive.length → (∀ p ∈ s.drive.take m, p.rst = false) →
    ∃ t, Host.Core.run core m s = .next t ∧ t.resetSeen = true ∧ t.slots[k + m]'hk = s.slots[k]'(by omega) := by
  induction m with
  | zero => intro s k hk hs _ _; exact ⟨s, rfl, hs, rfl⟩
  | succ m ih =>
    intro s k hk hs hl hp
    obtain ⟨p, ps, hd⟩ : ∃ p ps, s.drive = p :: ps := by
      cases h : s.drive with
      | nil => simp [h] at hl
      | cons p ps => exact ⟨p, ps, rfl⟩
    have hn := State.nextPins_of_cons hd
    have hr : p.rst = false := hp p (by simp [hd])
    obtain ⟨t, h1, h2, h3⟩ := ih (s.after s.nextPins) (k + 1) (by omega) (State.after_resetSeen _ hs)
      (by simpa [hd] using hl) (fun q hq => hp q (by simp [hd] at hq ⊢; exact .inr hq))
    refine ⟨t, by rw [run_succ m (step_eq_after hs), h1], h2, ?_⟩
    rw [hn, State.after_slot_succ hr] at h3
    rw [← h3]
    congr 1
    omega

end Sys2Proof.Machine
end

