-- ==== Sys2Proof/Tests/Slice0.lean ====
section
/-! SUPPORT. Our own tests.  Every expected value is a word or a value of spec/95_test_vectors.md, or of the rule named beside it. -/

namespace Sys2Proof.Tests

open Sys2Proof.Machine

/-! ### WellFormed: one ill-formed term for each check -/

theorem test_wf_refuses_reservedAB_with_another_op : (Instr.reservedAB 0x3#4).wf = false := by decide
theorem test_wf_refuses_reservedAB_with_op_C : (Instr.reservedAB 0xC#4).wf = false := by decide
theorem test_wf_refuses_reservedCF_with_op_B : (Instr.reservedCF 0xB#4).wf = false := by decide
theorem test_wf_takes_rnd_with_illegal_shift : (Instr.rnd 5#64 64#32).wf = true := by decide

/-! ### Decode: the words of 95_test_vectors.md, and ignored bits -/

theorem test_decode_rot : decode 0x0008000000000000000009B75#100 = .rot 39797#32 0#32 8388608#32 := by decide
theorem test_decode_vec : decode 0x1000000000000000400000003#100 = .vec 3#32 4#32 0#32 := by decide
theorem test_decode_qnorm_ignores_c : decode 0x21234567800000005FFFFFFFD#100 = .qnorm 0xFFFFFFFD#32 5#32 := by decide
theorem test_decode_rnd : decode 0x300000001FFFFFFFFFFFFFFFB#100 = .rnd 0xFFFFFFFFFFFFFFFB#64 1#32 := by decide
theorem test_decode_mag : decode 0x4000000000000000400000003#100 = .mag 3#16 4#16 := by decide
theorem test_decode_magw : decode 0x500000000FFFF8000FFFF8000#100 = .magw 0x8000#16 0x8000#16 := by decide
theorem test_decode_phase16_ignores_upper_halves :
    decode 0x600000000ABCD0001DEAD0001#100 = .phase16 1#16 1#16 := by decide
/-- The bits by hand: op 0111, c 0, b 5, a -3. -/
theorem test_decode_phase24_by_fields :
    decode (0b0111#4 ++ 0#32 ++ 5#32 ++ 0xFFFFFFFD#32) = .phase24 0xFFFD#16 5#16 := by decide
theorem test_decode_sincos24_ignores_bit_24 : decode 0x8000000000000000001000000#100 = .sincos24 0#24 := by decide
theorem test_decode_reserved9 : decode 0x9000000000000000000000000#100 = .reserved9 := by decide
theorem test_decode_reservedA : decode 0xA000000000000000000000000#100 = .reservedAB 0xA#4 := by decide
theorem test_decode_reservedB : decode 0xBFFFFFFFFFFFFFFFFFFFFFFFF#100 = .reservedAB 0xB#4 := by decide
theorem test_decode_reservedC : decode 0xC000000000000000000000000#100 = .reservedCF 0xC#4 := by decide
theorem test_decode_reservedF : decode 0xF00000000000000000000000A#100 = .reservedCF 0xF#4 := by decide
theorem test_decodeTableWord_rejects_bit_100 : decodeTableWord 104 (2 ^ 100) = none := by decide
theorem test_decodeTableWord_row : decodeTableWord 100 0x9000000000000000000000000 = some .reserved9 := by decide

/-- R59's worked example. -/
theorem test_encode_phase16 : encode (.phase16 1#16 1#16) = 0x6000000000000000100000001#100 := by decide
/-- P4, line 5: samples are written sign-extended. -/
theorem test_encode_magw : encode (.magw 0x8000#16 0x8000#16) = 0x500000000FFFF8000FFFF8000#100 := by decide
/-- P1, line 7. -/
theorem test_assemble_rnd :
    (assemble (.rnd (-5) 1)).req.toWord = 0x300000001FFFFFFFFFFFFFFFB#100 := by decide

/-! ### One step: the response word that enters slot 0 after reset -/

/-- The response word in slot 0 after the first edge, when that edge issues `w`. -/
def firstResponse (w : Nat) : Option (BitVec 101) :=
  match step (State.reset.withFetchWord 100 w) with
  | .next t =>
    match t.slots[0]'Config.latency_pos with
    | .full rsp => some rsp.toWord
    | .empty => none
  | .fault _ => none
  | .refused _ => none

theorem test_rot_minus_90 :
    firstResponse 0x0FF8000000000000000009B75 = some (0b0#1 ++ 0x0#4 ++ 0#32 ++ 0xFFFEFFFF#32 ++ 0xFFFFFFFE#32) := by decide +kernel
theorem test_rot_out_of_range :
    firstResponse 0x0010000000000000000000000 = some (0b0#1 ++ 0x0#4 ++ 7467448#32 ++ 0#32 ++ 0#32) := by decide +kernel
theorem test_vec_3_4 : firstResponse 0x1000000000000000400000003 = some 0x010051DD1E0000000000000009#101 := by decide +kernel
theorem test_vec_wraps :
    firstResponse 0x1000000007FFFFFFF7FFFFFFF = some (0b0#1 ++ 0x1#4 ++ 9309768#32 ++ 23#32 ++ 0xFFFFFFFE#32) := by decide +kernel
theorem test_qnorm : firstResponse 0x21234567800000005FFFFFFFD = some 0x02000000010000000300000005#101 := by decide +kernel
theorem test_qnorm_negation_wraps :
    firstResponse 0x2000000000000000580000000 = some (0b0#1 ++ 0x2#4 ++ 1#32 ++ 0x80000000#32 ++ 5#32) := by decide +kernel
theorem test_rnd_tie_goes_up : firstResponse 0x300000001FFFFFFFFFFFFFFFB = some 0x0300000000FFFFFFFFFFFFFFFE#101 := by decide +kernel
theorem test_rnd_shift_64 : firstResponse 0x3000000400000000000000005 = some 0x13000000000000000000000000#101 := by decide +kernel
theorem test_mag_1_0 : firstResponse 0x4000000000000000000000001 = some (0b0#1 ++ 0x4#4 ++ 0#32 ++ 0#32 ++ 15#32) := by decide +kernel
theorem test_mag_0_1 : firstResponse 0x4000000000000000100000000 = some (0b0#1 ++ 0x4#4 ++ 0#32 ++ 0#32 ++ 1#32) := by decide +kernel
theorem test_magw_extreme : firstResponse 0x500000000FFFF8000FFFF8000 = some 0x050000000000000000B505FBE2#101 := by decide +kernel
theorem test_phase16_quadrant_1 : firstResponse 0x60000000000000005FFFFFFFD = some 0x06000000000000000000005711#101 := by decide +kernel
/-- (76, 1): w = -8, so the result wraps inside its quadrant (R114). -/
theorem test_phase16_wraps_in_quadrant :
    firstResponse 0x600000000000000010000004C = some (0b0#1 ++ 0x6#4 ++ 0#32 ++ 0#32 ++ 16376#32) := by decide +kernel
/-- (76, 1): w = -2084 borrows from the quadrant (R116). -/
theorem test_phase24_borrows : firstResponse 0x700000000000000010000004C = some (0b0#1 ++ 0x7#4 ++ 0#32 ++ 0#32 ++ 0xFFF7DC#32) := by decide +kernel
theorem test_phase24_axis : firstResponse 0x700000000FFFFFFFF00000000 = some (0b0#1 ++ 0x7#4 ++ 0#32 ++ 0#32 ++ 0xC00000#32) := by decide +kernel
theorem test_sincos24_90 : firstResponse 0x8000000000000000000400000 = some 0x080000000000010000FFFFFFFD#101 := by decide +kernel
theorem test_sincos24_315 :
    firstResponse 0x8000000000000000000E00000 = some (0b0#1 ++ 0x8#4 ++ 0#32 ++ 0xFFFF4AFB#32 ++ 46342#32) := by decide +kernel
theorem test_reserved9 : firstResponse 0x9000000000000000000000000 = some 0x19000000000000000000000000#101 := by decide +kernel
theorem test_reservedB : firstResponse 0xBFFFFFFFFFFFFFFFFFFFFFFFF = some 0x1B000000000000000000000000#101 := by decide +kernel
theorem test_reservedF : firstResponse 0xF00000000000000000000000A = some 0x1F000000000000000000000000#101 := by decide +kernel

/-! ### Witnesses: for each statement with hypotheses, values that meet all of them together -/

/-- `MAG 3, 4` (R119). -/
def magLine : Pins := .request ⟨0x4#4, 0#32, 4#32, 3#32⟩

/-- The state after reset with `MAG 3, 4` and then enough IDLE lines driven. -/
def magThenIdle : State := { State.reset with drive := magLine :: List.replicate 26 .idle }

/-- Reset, in flight at the last edge that can lose the response: 25 IDLE lines and a RESET line. -/
def magThenLateReset : State := { State.reset with drive := magLine :: (List.replicate 25 Pins.idle ++ [Pins.reset]) }

/-- DecodeOfEncodeIsIdentity, at the two ends of each reserved row. -/
theorem witness_wf_reservedA_B_C_F :
    (Instr.reservedAB 0xA#4).wf = true ∧ (Instr.reservedAB 0xB#4).wf = true ∧
    (Instr.reservedCF 0xC#4).wf = true ∧ (Instr.reservedCF 0xF#4).wf = true := by decide

/-- DecodeNamesOperationAndOperands and ReservedCodesAnswerAnError: the reserved rows' codes. -/
theorem witness_reserved_rows :
    (0xA#4 = 0xA#4 ∨ 0xA#4 = 0xB#4) ∧ (0xB#4 = 0xA#4 ∨ 0xB#4 = 0xB#4) ∧ 0xC ≤ (0xC#4 : Opcode).toNat ∧
    0xC ≤ (0xF#4 : Opcode).toNat ∧ 9 ≤ (⟨0x9#4, 0#32, 0#32, 0#32⟩ : Request).op.toNat := by decide

/-- DecodeIgnoresExactlyTheDontCareBits: two words that differ in ignored bits only, and codes below 9. -/
theorem witness_words_equal_under_mask :
    (0x6000000000000000100000001#100 &&& readMask 0x6#4 = 0x600000000ABCD0001DEAD0001#100 &&& readMask 0x6#4) ∧
    (⟨0x8#4, 0#32, 0#32, 0#32⟩ : Request).op.toNat < 9 ∧ (⟨0x3#4, 64#32, 0#32, 5#32⟩ : Request).op.toNat < 9 := by decide

/-- OpcodeTableRowsPartitionTheWords, at the first and the last row. -/
theorem witness_opcode_rows :
    (opcodeTable[0]? = some ⟨"ROT", 0x0000000000000000000000000#100, 0xF000000000000000000000000#100⟩) ∧
    opcodeTable[11]? = some ⟨"RESERVED", 0xC000000000000000000000000#100, 0xC000000000000000000000000#100⟩ := by decide

/-- AssembledLinesIssueTheirOperations: a line that is neither IDLE nor RESET. -/
theorem witness_issuing_line : Line.mag 3 4 ≠ .idle ∧ Line.mag 3 4 ≠ .reset := by decide

/-- StepRunsTheDecodedInstruction, StepFollowsTheSlotRelation, StepAfterResetAlwaysCompletes and RequestEntersExactlyWhenAccepted: an
accepting edge. -/
theorem witness_accepting_edge :
    magThenIdle.drive = magLine :: List.replicate 26 .idle ∧ magThenIdle.resetSeen = true ∧
    magLine.rst = false ∧ magLine.inValid = true := ⟨rfl, rfl, rfl, rfl⟩

/-- StepFollowsTheSlotRelation and RequestEntersExactlyWhenAccepted: an edge with `rst` = 1, with and without `in_valid`. -/
theorem witness_reset_edge :
    ({ State.reset with drive := [Pins.reset] } : State).drive = Pins.reset :: [] ∧ Pins.reset.rst = true ∧
    (⟨true, true, magLine.req⟩ : Pins).rst = true := ⟨rfl, rfl, rfl⟩

/-- ResetEdgesEmptyEverySlot: one and two RESET lines, then a request. -/
theorem witness_reset_lines :
    [Pins.reset] ≠ [] ∧ (∀ p ∈ [Pins.reset], p.rst = true) ∧ ∀ p ∈ [Pins.reset, Pins.reset], p.rst = true := by decide

/-- PowerUpNeedsOneResetEdge: a request and an idle edge, and a reset edge. -/
theorem witness_power_up_edges : (magLine.rst = false ∧ Pins.idle.rst = false) ∧ Pins.reset.rst = true := by decide

/-- A drawn response on the ports at power-up is not sampled (R34). -/
theorem test_power_up_draw_is_not_sampled :
    (State.powerUp (Vector.replicate _ (.full (reservedResponse 0x9#4)))).sighting = [] := rfl

/-- An idle edge before the first reset is refused (U5), and so leaves no drawn slot known. -/
theorem test_power_up_idle_is_refused :
    (match step (State.powerUp (Vector.replicate _ .empty)) with
      | .refused r => some r
      | .next _ => none
      | .fault _ => none) = some .noResetSincePowerUp := rfl

/-- EveryEdgeKeepsStagesAndSlotsMatching: the two machines after reset, about to accept a request. -/
theorem witness_stages_match :
    Staged.reset.Matches magThenIdle ∧ magThenIdle.resetSeen = true ∧ ∃ t, step magThenIdle = .next t := by
  refine ⟨fun k hk => ?_, rfl, _, rfl⟩
  simp [magThenIdle, Staged.pending, Staged.reset, Slot.ofOption]

/-- ResetStateIsEmpty: lines that accept nothing. -/
theorem witness_nothing_accepted : ∀ p ∈ [Pins.idle, Pins.reset, ⟨true, true, magLine.req⟩], p.accepts = false := by decide

/-- ResponseAppearsAfterLatency, first clause, and ResponseIndependentOfOtherRequests (with the next theorem's state). -/
theorem witness_response_survives :
    magThenIdle.drive = magLine :: List.replicate 26 .idle ∧ Config.latency - 1 ≤ (List.replicate 26 Pins.idle).length ∧
    magThenIdle.resetSeen = true ∧ magLine.accepts = true ∧ noResetInFlight (List.replicate 26 .idle) = true :=
  ⟨rfl, by decide, rfl, by decide, by decide⟩

/-- ResponseIndependentOfOtherRequests: a second history, with a full pipeline and 26 more requests behind the first. -/
theorem witness_other_history :
    ({ State.reset with slots := Vector.replicate _ (.full (reservedResponse 0x9#4)), drive := List.replicate 27 magLine } : State).drive =
      magLine :: List.replicate 26 magLine ∧
    Config.latency - 1 ≤ (List.replicate 26 magLine).length ∧ noResetInFlight (List.replicate 26 magLine) = true :=
  ⟨rfl, by decide, by decide⟩

/-- ResponseAppearsAfterLatency, second clause, at the last edge that loses the response. -/
theorem witness_response_lost :
    Config.latency - 1 ≤ (List.replicate 25 Pins.idle ++ [Pins.reset]).length ∧ magThenLateReset.resetSeen = true ∧
    noResetInFlight (List.replicate 25 Pins.idle ++ [Pins.reset]) = false := ⟨by decide, rfl, by decide⟩

/-- HostSeesExactlyThePromisedResponses and LegalRunsAreErrorFree: empty slots and a legal request. -/
theorem witness_legal_run :
    AllEmpty magThenIdle ∧ magThenIdle.resetSeen = true ∧ LegalLines (magLine :: List.replicate 26 .idle) := by
  refine ⟨fun k h => by simp [magThenIdle], rfl, fun p hp ha => ?_⟩
  rcases List.mem_cons.1 hp with rfl | hp
  · decide
  · rw [List.eq_of_mem_replicate hp] at ha
    exact absurd ha (by decide)

/-- StepKeepsSlotsHoldResponses: a state that meets the invariant and takes a step. -/
theorem witness_invariant_step :
    SlotsHoldResponses magThenIdle ∧ ∃ t, step magThenIdle = .next t :=
  ⟨fun _ k h rsp hr => by simp [magThenIdle] at hr, _, rfl⟩

/-- ErrorResponseCarriesNoResult, for each of the two causes. -/
theorem witness_error_responses :
    (requestResponse ⟨0xF#4, 0#32, 0#32, 0xA#32⟩).err = true ∧ (requestResponse ⟨0x3#4, 0#32, 0#32, 5#32⟩).err = true := by
  decide

/-- ErrorResponsesHaveExactlyTwoCauses: each side of each bound. -/
theorem witness_error_bounds :
    (requestResponse ⟨0x9#4, 0#32, 0#32, 0#32⟩).fault = some .reservedOp ∧
    (requestResponse ⟨0x3#4, 64#32, 0#32, 5#32⟩).fault = some .rndShiftRange ∧
    (requestResponse ⟨0x3#4, 1#32, 0#32, 5#32⟩).fault = none ∧ (requestResponse ⟨0x3#4, 63#32, 0#32, 5#32⟩).fault = none := by
  decide +kernel

/-- RndAnswersTheRoundedValue and RoundShiftIsExactRoundHalfUp: the ends of the legal range and the values just outside it. -/
theorem witness_rnd_bits :
    (1 ≤ (1#32 : Word).toNat ∧ (1#32 : Word).toNat ≤ 63) ∧ (1 ≤ (63#32 : Word).toNat ∧ (63#32 : Word).toNat ≤ 63) ∧
    ((0#32 : Word).toNat < 1 ∨ 63 < (0#32 : Word).toNat) ∧ ((64#32 : Word).toNat < 1 ∨ 63 < (64#32 : Word).toNat) := by decide

/-- ResponsesEchoOpAndZeroUnusedFields: a code for each clause. -/
theorem witness_result_fields :
    3 ≤ (⟨0x3#4, 1#32, 0#32, 5#32⟩ : Request).op.toNat ∧ (0x4#4 = 0x4#4 ∨ 0x4#4 = 0x6#4 ∨ (0x4#4 : Opcode) = 0x7#4) ∧
    (⟨0x6#4, 0#32, 1#32, 1#32⟩ : Request).op = 0x6#4 ∧ (⟨0x7#4, 0#32, 1#32, 1#32⟩ : Request).op = 0x7#4 ∧
    (⟨0x2#4, 0#32, 0#32, 0#32⟩ : Request).op = 0x2#4 := by decide

/-- ComposedVectorPathsNeverWrap and EngineStagesFollowThePseudocode: the largest inputs and the last stage. -/
theorem witness_engine_bounds :
    |(32768#32 : Word).toInt| ≤ 32768 ∧ |(0xFFFF8000#32 : Word).toInt| ≤ 32768 ∧ 24 ≤ 24 := by decide

/-- AngleTableIsRoundedArctangents, MagnitudeGrowsAndStaysBounded and SinCosPathNeverWraps: the first and last indexes. -/
theorem witness_indexes : (0 < 24 ∧ 23 < 24) ∧ 0 ≤ 24 ∧ 24 ≤ 24 := by decide

/-- OutputPortsShowTheLastSlot: a state whose last slot is full. -/
theorem witness_full_last_slot :
    ({ State.reset with slots := Vector.replicate _ (.full (reservedResponse 0x9#4)) } : State).slots[Config.latency - 1]'(by decide) =
      .full (reservedResponse 0x9#4) := by decide

/-- FoldedVectorTurnsBackByItsQuadrant: an input in each quadrant. -/
theorem witness_fold_quadrants :
    ¬((1#32 : Word) = 0#32 ∧ (0#32 : Word) = 0#32) ∧ (1#32 : Word).toInt ≠ -2 ^ 31 ∧ (0#32 : Word).toInt ≠ -2 ^ 31 ∧
    (normalize 1#32 0#32).q = 0#2 ∧ (normalize 0#32 1#32).q = 1#2 ∧ (normalize (-1#32) 0#32).q = 2#2 ∧
    (normalize 0#32 (-1#32)).q = 3#2 := by decide

/-- AxisInputsGiveExactPhases: each axis at its smallest and largest samples. -/
theorem witness_axis_samples :
    (0#16 : Sample).toInt = 0 ∧ 0 < (1#16 : Sample).toInt ∧ 0 < (0x7FFF#16 : Sample).toInt ∧ (0xFFFF#16 : Sample).toInt < 0 ∧
    (0x8000#16 : Sample).toInt < 0 ∧ (1#16 : Sample).toInt ≠ 0 := by decide

/-- Phase16StaysInItsQuadrant. -/
theorem witness_phase_off_origin : ¬((0#16 : Sample) = 0#16 ∧ (1#16 : Sample) = 0#16) ∧ (1#16 : Sample) ≠ 0#16 := by decide

end Sys2Proof.Tests
end

section
/-! Proofs of the scope family: every operation is one clocked entry of its response. -/

namespace Sys2Proof.Machine

/-- The accepting edge of R177, with no case that stops: the pipeline advances and the response of `i` enters. -/
theorem exec_eq_next_clock (i : Instr) (s : State) : exec i s = .next (s.clock (.full (responseOf i))) :=
  (exec_eq_accept i s).trans (accept_next_iff.2 rfl)

/-- Settles O26: every operation is a `clock` by its own response, and `clock` has the frame asked for. -/
theorem everyOperationOnlyEntersItsResponse : Obligations.EveryOperationOnlyEntersItsResponse := by
  intro i s
  refine ⟨s.clock (.full (responseOf i)), exec_eq_next_clock i s, ?slotZero, ?otherSlots, ?resetSeen, ?drive, ?edgeCount⟩
  case slotZero => exact State.clock_slot_zero _ s _
  case otherSlots => exact State.clock_slot_succ _ s
  case resetSeen => exact State.clock_resetSeen _ s
  case drive => exact State.clock_drive _ s
  case edgeCount => exact State.clock_edgeCount _ s

end Sys2Proof.Machine
end

section
/-! Proofs of the state family, the step: what an edge can leave in a slot, and the invariants every edge keeps. -/

namespace Sys2Proof.Machine

/-- Everything a completed step can do: it is `after`, and it had a reset on the line or in the past. -/
theorem step_next_inv {s t : State} (h : step s = .next t) :
    t = s.after s.nextPins ∧ (s.nextPins.rst = true ∨ s.resetSeen = true) := by
  cases hs : s.resetSeen
  case true =>
    rw [step_eq_after hs, Host.Outcome.next.injEq] at h
    exact ⟨h.symm, .inr rfl⟩
  case false =>
    cases hr : s.nextPins.rst
    case true =>
      rw [step, edge_of_reset hr, Host.Outcome.next.injEq] at h
      exact ⟨by simp [State.after, hr, h], .inl rfl⟩
    case false => simp [step, edge, hr, hs] at h

/-- A slot that is full after an edge was filled by the request of that edge or by the slot before it. -/
theorem State.after_slot_eq_full {s : State} {p : Pins} {k : Nat} {hk : k < Config.latency} {rsp : Response}
    (h : (s.after p).slots[k]'hk = .full rsp) :
    p.rst = false ∧ (rsp = requestResponse p.req ∨ ∃ (j : Nat) (hj : j < Config.latency), s.slots[j] = .full rsp) := by
  cases hr : p.rst
  case true => simp [State.after_slot_of_reset hr] at h
  case false =>
    refine ⟨rfl, ?_⟩
    cases k with
    | zero =>
      rw [State.after_slot_zero hr] at h
      split at h
      · exact .inl (Slot.full.inj h).symm
      · cases h
    | succ j =>
      rw [State.after_slot_succ hr] at h
      exact .inr ⟨j, by omega, h⟩

/-- Settles O22: a full slot was filled by this edge's request or carried from a slot that met the invariant, and a reset edge fills
none. -/
theorem stepKeepsSlotsHoldResponses : Obligations.StepKeepsSlotsHoldResponses := by
  intro s t hs hstep _ k hk rsp hfull
  obtain ⟨rfl, hseen⟩ := step_next_inv hstep
  obtain ⟨hr, rfl | ⟨j, hj, hslot⟩⟩ := State.after_slot_eq_full hfull
  · exact ⟨_, rfl⟩
  · exact hs (hseen.resolve_left (by simp [hr])) j hj rsp hslot

/-- Settles O23: reset leaves no full slot, and power-up comes before any reset. -/
theorem slotsHoldResponsesFromReset : Obligations.SlotsHoldResponsesFromReset := by
  refine ⟨fun _ k hk rsp hfull => ?_, fun draw hseen => ?_⟩
  · simp at hfull
  · simp at hseen

end Sys2Proof.Machine
end

section
/-! Proofs of the state family, the staged hardware: what each stage will answer, and that an edge moves it on by one slot. -/

namespace Sys2Proof.Machine

/-- Finishing from stage `i` of an engine call is post-processing its stage `i + n`. -/
theorem StageReg.finish_stage (m : Mode) (t : Triple) (side : SideBand) (n : Nat) :
    ∀ i : Nat, StageReg.finish n i ⟨stage m t i, m, side⟩ = postprocess ⟨stage m t (i + n), m, side⟩ := by
  induction n with
  | zero => intro i; rfl
  | succ n ih =>
    intro i
    calc StageReg.finish (n + 1) i ⟨stage m t i, m, side⟩
        = StageReg.finish n (i + 1) ⟨stage m t (i + 1), m, side⟩ := rfl
      _ = postprocess ⟨stage m t (i + (n + 1)), m, side⟩ := by rw [ih, Nat.add_right_comm, Nat.add_assoc]

/-- Finishing a pre-processed request runs the whole engine and then post-processes. -/
theorem StageReg.finish_cordic (w : StageReg) :
    w.finish iterations 0 = postprocess { w with triple := cordic w.mode w.triple } := by
  have h := StageReg.finish_stage w.mode w.triple w.side iterations 0
  rwa [Nat.zero_add] at h

/-- R183's stages compute R177's `Exec`: what slot 1 prepares is finished to the request's response. -/
theorem finish_preprocess (r : Request) : (preprocess r).finish iterations 0 = requestResponse r := by
  rw [StageReg.finish_cordic, requestResponse, preprocess]
  cases decode r.toWord with
  | rot x0 y0 z0 => rfl
  | vec x0 y0 z0 => rfl
  | qnorm x y => simp [postprocess, StageReg.noEngine, SideBand.plain, responseOf, qnormResponse, normalize]
  | rnd value bits =>
    cases h : rndShiftLegal bits <;>
      simp [postprocess, StageReg.noEngine, SideBand.plain, responseOf, rndResponse, raiseErr, h]
  | mag x y => rfl
  | magw x y => rfl
  | phase16 x y =>
    cases h : axisPhase16 x y <;>
      simp [postprocess, SideBand.plain, responseOf, phase16Response, phase16Value, vectorAngle, h]
  | phase24 x y =>
    cases h : axisPhase24 x y <;>
      simp [postprocess, SideBand.plain, responseOf, phase24Response, phase24Value, vectorAngle, h]
  | sincos24 theta => rfl
  | reserved9 => rfl
  | reservedAB op => rfl
  | reservedCF op => rfl

@[simp] theorem Staged.pending_zero (h : Staged) : h.pending 0 = h.input.map requestResponse := by
  simp [Staged.pending, finish_preprocess]

@[simp] theorem Staged.pending_one (h : Staged) : h.pending 1 = h.pre.map (StageReg.finish iterations 0) := rfl

theorem Staged.pending_engine (h : Staged) (i : Nat) (hi : i < iterations) :
    h.pending (i + 2) = h.engine[i].map (StageReg.finish (iterations - (i + 1)) (i + 1)) := by
  simp [Staged.pending, hi]

theorem Staged.pending_output (h : Staged) : h.pending (iterations + 2) = h.output := by
  simp [Staged.pending]

@[simp] theorem Staged.reset_pending (k : Nat) : Staged.reset.pending k = none := by
  simp [Staged.pending, Staged.reset]

theorem Staged.edge_of_reset {p : Pins} (h : Staged) (hr : p.rst = true) : h.edge p = .reset := by
  simp [Staged.edge, hr]

/-- One more engine stage is one stage less to finish. -/
theorem StageReg.map_advance_finish (w : Option StageReg) (n i : Nat) :
    (w.map (StageReg.advance i)).map (StageReg.finish n (i + 1)) = w.map (StageReg.finish (n + 1) i) := by
  rw [Option.map_map]
  rfl

section NoReset

variable {p : Pins} (h : Staged) (hr : p.rst = false)
include hr

theorem Staged.edge_input : (h.edge p).input = if p.inValid then some p.req else none := by
  simp [Staged.edge, hr]

theorem Staged.edge_pre : (h.edge p).pre = h.input.map preprocess := by
  simp [Staged.edge, hr]

theorem Staged.edge_engine_zero (h0 : 0 < iterations) :
    (h.edge p).engine[0] = h.pre.map (StageReg.advance 0) := by
  simp [Staged.edge, hr]

theorem Staged.edge_engine_succ (i : Nat) (hi : i + 1 < iterations) :
    (h.edge p).engine[i + 1] = h.engine[i].map (StageReg.advance (i + 1)) := by
  simp [Staged.edge, hr]

theorem Staged.edge_output (hl : iterations - 1 < iterations) :
    (h.edge p).output = (h.engine[iterations - 1]).map postprocess := by
  simp [Staged.edge, hr]

/-- The request of an edge without a reset is pending in slot 0. -/
theorem Staged.edge_pending_zero :
    (h.edge p).pending 0 = if p.inValid then some (requestResponse p.req) else none := by
  rw [Staged.pending_zero, Staged.edge_input h hr]
  split <;> rfl

/-- An edge without a reset moves what is pending on by one slot, whichever stage holds it. -/
theorem Staged.edge_pending_succ (k : Nat) (hk : k + 1 < Config.latency) :
    (h.edge p).pending (k + 1) = h.pending k := by
  match k with
  | 0 =>
    rw [Staged.pending_one, Staged.edge_pre h hr, Staged.pending_zero, Option.map_map]
    exact congrArg (h.input.map ·) (funext finish_preprocess)
  | 1 =>
    rw [Staged.pending_engine _ 0 (by decide), Staged.edge_engine_zero h hr, StageReg.map_advance_finish]
    rfl
  | i + 2 =>
    have hi : i < iterations := by simp only [Config.latency, iterations] at hk ⊢; omega
    rw [Staged.pending_engine h i hi]
    by_cases hlast : i + 1 < iterations
    · have hn : iterations - (i + 1) = iterations - (i + 1 + 1) + 1 := by omega
      rw [Staged.pending_engine _ (i + 1) hlast, Staged.edge_engine_succ h hr i hlast,
        StageReg.map_advance_finish, hn]
    · obtain rfl : i = iterations - 1 := by omega
      exact (Staged.pending_output _).trans (Staged.edge_output h hr hi)

end NoReset

/-- The machines' one edge, as a commuting diagram: matching stays matching. -/
theorem Staged.Matches.edge_after {h : Staged} {s : State} (hm : h.Matches s) (p : Pins) :
    (h.edge p).Matches (s.after p) := by
  intro k hk
  cases hr : p.rst
  case true => rw [State.after_slot_of_reset hr, Staged.edge_of_reset h hr, Staged.reset_pending, Slot.ofOption]
  case false =>
    cases k with
    | zero =>
      rw [State.after_slot_zero hr, Staged.edge_pending_zero h hr]
      split <;> rfl
    | succ k => rw [State.after_slot_succ hr, Staged.edge_pending_succ h hr k hk, hm k]

/-- Settles O55: a step is `after`, and `Matches` is kept by it. -/
theorem everyEdgeKeepsStagesAndSlotsMatching : Obligations.EveryEdgeKeepsStagesAndSlotsMatching := by
  intro h s t hm _ hstep
  rw [(step_next_inv hstep).1]
  exact hm.edge_after _

/-- The staged reset registers match any state whose slots are all `Empty`. -/
theorem Staged.reset_matches {s : State} (hs : AllEmpty s) : Staged.reset.Matches s := by
  intro k hk
  rw [hs k hk, Staged.reset_pending, Slot.ofOption]

theorem Staged.Matches.shows_eq_lastSlot {h : Staged} {s : State} (hm : h.Matches s) : h.shows = s.lastSlot := by
  rw [Staged.shows, ← Staged.pending_output]
  exact (hm (Config.latency - 1) (by decide)).symm

theorem allEmpty_reset (ps : List Pins) : AllEmpty { State.reset with drive := ps } := by
  intro k hk
  simp

/-- Settles O56: slots and stages are all empty at reset, and the last slot stands for the output register. -/
theorem stagesAndSlotsMatchAtReset : Obligations.StagesAndSlotsMatchAtReset :=
  ⟨Staged.reset_matches (allEmpty_reset []), fun _ _ hm => hm.shows_eq_lastSlot⟩

/-- Driven by the same lines, matching machines both run to their end and match there. -/
theorem Staged.Matches.run (ps : List Pins) : ∀ {h : Staged} {s : State},
    h.Matches s → s.resetSeen = true → s.drive = ps →
      ∃ t : State, Host.Core.run core ps.length s = .next t ∧ (h.run ps).Matches t := by
  induction ps with
  | nil => intro h s hm _ _; exact ⟨s, rfl, hm⟩
  | cons p ps ih =>
    intro h s hm hs hd
    have hstep : step s = .next (s.after p) := by rw [step_eq_after hs, State.nextPins_of_cons hd]
    obtain ⟨t, hrun, hmt⟩ := ih (hm.edge_after p) (State.after_resetSeen p hs) (by simp [hd])
    exact ⟨t, (run_succ ps.length hstep).trans hrun, hmt⟩

/-- Settles O25: the machines match at reset, so they match after any run, and then show the same. -/
theorem stagedHardwareMatchesTheSlots : Obligations.StagedHardwareMatchesTheSlots := by
  intro ps
  obtain ⟨t, hrun, hm⟩ := (Staged.reset_matches (allEmpty_reset ps)).run ps rfl rfl
  exact ⟨t, hrun, hm.shows_eq_lastSlot⟩

end Sys2Proof.Machine
end

section
/-! Proofs of the state family, the boundary: power-up, reset and what the ports show. -/

namespace Sys2Proof.Machine

theorem step_of_reset_line {s : State} (hr : s.nextPins.rst = true) : step s = .next s.dropPins.clear :=
  edge_of_reset hr

theorem step_before_reset {s : State} (hr : s.nextPins.rst = false) (hs : s.resetSeen = false) :
    step s = .refused .noResetSincePowerUp := by
  simp [step, edge, hr, hs]

/-- Settles O12: before the first reset an edge either is refused or clears every slot. -/
theorem powerUpNeedsOneResetEdge : Obligations.PowerUpNeedsOneResetEdge := by
  intro draw ps p
  refine ⟨fun hr => step_before_reset hr rfl, fun hr => ⟨_, step_of_reset_line hr, ?_, rfl, rfl⟩⟩
  exact State.clear_slot _

theorem lastSlot_of_allEmpty {s : State} (hs : AllEmpty s) : s.lastSlot = .empty :=
  hs (Config.latency - 1) (by decide)

/-- An edge that accepts nothing keeps the pipeline empty. -/
theorem allEmpty_after {s : State} {p : Pins} (hs : AllEmpty s) (hp : p.accepts = false) : AllEmpty (s.after p) := by
  intro k hk
  cases hr : p.rst
  case true => exact State.after_slot_of_reset hr k hk
  case false =>
    cases k with
    | zero =>
      have hv : p.inValid = false := by simpa [Pins.accepts, Pins.inReady, hr] using hp
      simp [State.after_slot_zero hr, hv]
    | succ k => rw [State.after_slot_succ hr, hs k]

/-- From empty slots a host sees nothing until a request is accepted. -/
theorem observe_eq_nil_of_allEmpty (ps : List Pins) : ∀ s : State, AllEmpty s → s.resetSeen = true → s.drive = ps →
    (∀ p ∈ ps, p.accepts = false) → observe ps.length s = [] := by
  induction ps with
  | nil => intro s _ _ _ _; rfl
  | cons p ps ih =>
    intro s hs hseen hd hps
    have hrest : observe ps.length (s.after p) = [] :=
      ih (s.after p) (allEmpty_after hs (hps p List.mem_cons_self)) (State.after_resetSeen p hseen) (by simp [hd])
        fun q hq => hps q (List.mem_cons_of_mem p hq)
    rw [List.length_cons, observe_succ _ hseen, State.sighting_of_empty (lastSlot_of_allEmpty hs),
      State.nextPins_of_cons hd, hrest, List.nil_append]

theorem State.outValid_eq_true_iff (s : State) : s.outValid = true ↔ ∃ rsp : Response, s.lastSlot = .full rsp := by
  unfold State.outValid
  cases s.lastSlot <;> simp

theorem State.outPorts_of_full {s : State} {rsp : Response} (h : s.lastSlot = .full rsp) : s.outPorts = rsp := by
  simp [State.outPorts, h]

theorem State.outValid_of_empty {s : State} (h : s.lastSlot = .empty) : s.outValid = false := by
  simp [State.outValid, h]

/-- Settles O14: the reset state's slots are empty, and stay so while nothing is accepted. -/
theorem resetStateIsEmpty : Obligations.ResetStateIsEmpty := by
  refine ⟨allEmpty_reset [], State.outValid_of_empty (lastSlot_of_allEmpty (allEmpty_reset [])), rfl, rfl, rfl, ?_⟩
  exact fun ps hps => observe_eq_nil_of_allEmpty ps _ (allEmpty_reset ps) rfl rfl hps

/-- Settles O17: both port functions read `lastSlot`, which is slot[LATENCY-1]. -/
theorem outputPortsShowTheLastSlot : Obligations.OutputPortsShowTheLastSlot :=
  fun s => ⟨s.outValid_eq_true_iff, fun _ hfull => State.outPorts_of_full hfull⟩

end Sys2Proof.Machine
end

section
/-! Proofs of the state family, the wired constants: the angle table and the gain against their real values (R21, R24). -/

namespace Sys2Proof.Machine

/-- Settles O39: the table is a closed list, so each column is compared with it by evaluation. -/
theorem angleTableValuesAndSum : Obligations.AngleTableValuesAndSum := by
  refine ⟨?decimals, ?sum, ?width⟩
  case decimals => decide
  case sum => rfl
  case width => simp [angleTable]

/-- A quotient rounds to `n` when the dividend lies strictly between the half-way multiples of the divisor. -/
theorem abs_sub_div_lt_half {n a b : ℝ} (hb : 0 < b) (hlo : (n - 1 / 2) * b < a) (hhi : a < (n + 1 / 2) * b) :
    |n - a / b| < 1 / 2 := by
  have h₁ : n - 1 / 2 < a / b := (lt_div_iff₀ hb).2 hlo
  have h₂ : a / b < n + 1 / 2 := (div_lt_iff₀ hb).2 hhi
  exact abs_lt.2 ⟨by linarith, by linarith⟩

/-- The first `k` terms of the arctangent's power series, in exact arithmetic. -/
def arctanSum (k : ℕ) (x : ℚ) : ℚ :=
  ∑ n ∈ Finset.range k, (-1) ^ n * (x ^ (2 * n + 1) / (2 * n + 1))

/-- The series alternates with decreasing terms, so an even number of terms is too little and one more is too much. -/
theorem arctanSum_le_arctan_le {x : ℚ} (h0 : 0 ≤ x) (h1 : x < 1) (k : ℕ) :
    (arctanSum (2 * k) x : ℝ) ≤ Real.arctan x ∧ Real.arctan x ≤ arctanSum (2 * k + 1) x := by
  have hx0 : (0 : ℝ) ≤ x := mod_cast h0
  have hx1 : (x : ℝ) < 1 := mod_cast h1
  have hseries : Filter.Tendsto
      (fun m : ℕ => ∑ n ∈ Finset.range m, (-1 : ℝ) ^ n * ((x : ℝ) ^ (2 * n + 1) / (2 * n + 1)))
      Filter.atTop (nhds (Real.arctan x)) := by
    have h := (Real.hasSum_arctan (x := x) (by rwa [Real.norm_of_nonneg hx0])).tendsto_sum_nat
    simpa [mul_div_assoc] using h
  have hanti : Antitone fun n : ℕ => (x : ℝ) ^ (2 * n + 1) / (2 * n + 1) := by
    intro m n hmn
    have hpow : (x : ℝ) ^ (2 * n + 1) ≤ (x : ℝ) ^ (2 * m + 1) := pow_le_pow_of_le_one hx0 hx1.le (by omega)
    dsimp only
    gcongr
  have hcast (m : ℕ) : (arctanSum m x : ℝ) =
      ∑ n ∈ Finset.range m, (-1 : ℝ) ^ n * ((x : ℝ) ^ (2 * n + 1) / (2 * n + 1)) := by
    simp [arctanSum]
  rw [hcast, hcast]
  exact ⟨hanti.alternating_series_le_tendsto hseries k, hanti.tendsto_le_alternating_series hseries k⟩

/-- 20 decimals of π, from below and from above. -/
def piLow : ℚ := 3.14159265358979323846

def piHigh : ℚ := 3.14159265358979323847

theorem piLow_lt_pi : (piLow : ℝ) < Real.pi := by
  have h := Real.pi_gt_d20
  norm_num [piLow] at h ⊢
  exact h

theorem pi_lt_piHigh : Real.pi < piHigh := by
  have h := Real.pi_lt_d20
  norm_num [piHigh] at h ⊢
  exact h

/-- No entry is 0, and ten and eleven terms of the series decide the rounding of every entry but the first. -/
theorem angleEntry_between_arctanSums : ∀ i < 24, i ≠ 0 → 1 ≤ (angleEntry i).toNat ∧
    ((angleEntry i).toNat - 1 / 2) * piHigh < 2 ^ 24 * arctanSum (2 * 5) (2⁻¹ ^ i) ∧
    2 ^ 24 * arctanSum (2 * 5 + 1) (2⁻¹ ^ i) < ((angleEntry i).toNat + 1 / 2) * piLow := by
  decide +kernel

theorem angleEntry_zero_rounds_arctan_one :
    |((angleEntry 0).toNat : ℝ) - 2 ^ 24 * Real.arctan ((2 : ℝ)⁻¹ ^ 0) / Real.pi| < 1 / 2 := by
  have hquot : 2 ^ 24 * (Real.pi / 4) / Real.pi = 4194304 := by
    field_simp [Real.pi_ne_zero]
    norm_num
  have hentry : (angleEntry 0).toNat = 4194304 := by decide
  rw [pow_zero, Real.arctan_one, hquot, hentry]
  norm_num

/-- Off the first entry the partial sums keep the arctangent away from the half-way points. -/
theorem angleEntry_rounds_arctan {i : ℕ} (hi : i < 24) (h0 : i ≠ 0) :
    |((angleEntry i).toNat : ℝ) - 2 ^ 24 * Real.arctan ((2 : ℝ)⁻¹ ^ i) / Real.pi| < 1 / 2 := by
  obtain ⟨hpos, hlo, hhi⟩ := angleEntry_between_arctanSums i hi h0
  obtain ⟨hbelow, habove⟩ := arctanSum_le_arctan_le (x := 2⁻¹ ^ i) (by positivity)
    (pow_lt_one₀ (by norm_num) (by norm_num) h0) 5
  have hn : (1 : ℝ) ≤ (angleEntry i).toNat := mod_cast hpos
  replace hlo := Rat.cast_lt (K := ℝ).2 hlo
  replace hhi := Rat.cast_lt (K := ℝ).2 hhi
  push_cast at hbelow habove hlo hhi
  refine abs_sub_div_lt_half Real.pi_pos ?below ?above
  case below =>
    calc ((angleEntry i).toNat - 1 / 2 : ℝ) * Real.pi
        ≤ ((angleEntry i).toNat - 1 / 2) * piHigh := by
          gcongr
          · linarith
          · exact pi_lt_piHigh.le
      _ < 2 ^ 24 * arctanSum (2 * 5) (2⁻¹ ^ i) := hlo
      _ ≤ 2 ^ 24 * Real.arctan (2⁻¹ ^ i) := by gcongr
  case above =>
    calc (2 ^ 24 * Real.arctan (2⁻¹ ^ i) : ℝ)
        ≤ 2 ^ 24 * arctanSum (2 * 5 + 1) (2⁻¹ ^ i) := by gcongr
      _ < ((angleEntry i).toNat + 1 / 2) * piLow := hhi
      _ ≤ ((angleEntry i).toNat + 1 / 2) * Real.pi := by
          gcongr
          exact piLow_lt_pi.le

/-- Settles O38: entry 0 is an eighth of a turn exactly, and the others lie between partial sums of the arctangent's series. -/
theorem angleTableIsRoundedArctangents : Obligations.AngleTableIsRoundedArctangents := by
  refine ⟨rfl, fun i hi => ?_⟩
  by_cases h0 : i = 0
  · subst h0
    exact angleEntry_zero_rounds_arctan_one
  · exact angleEntry_rounds_arctan hi h0

/-- The square of the gain of 24 iterations. -/
def gainSquared : ℚ :=
  ∏ i ∈ Finset.range 24, (1 + 4⁻¹ ^ i)

theorem prod_sqrt_eq_sqrt_gainSquared :
    ∏ i ∈ Finset.range 24, Real.sqrt (1 + (4 : ℝ)⁻¹ ^ i) = Real.sqrt gainSquared := by
  rw [← Real.sqrt_prod _ fun i _ => by positivity]
  simp [gainSquared]

/-- The square of 2^16 lies between those of the half-way multiples of the gain. -/
theorem two_pow_between_gain_multiples :
    (gain - 1 / 2) ^ 2 * gainSquared < (2 ^ 16) ^ 2 ∧ (2 ^ 16) ^ 2 < (gain + 1 / 2) ^ 2 * gainSquared := by
  decide +kernel

/-- Settles O40: squaring turns the rounding of 2^16 over a product of roots into two comparisons of rationals. -/
theorem gainConstantIsNearestReciprocalGain : Obligations.GainConstantIsNearestReciprocalGain := by
  refine ⟨rfl, ?_⟩
  obtain ⟨hlo, hhi⟩ := two_pow_between_gain_multiples
  replace hlo := Rat.cast_lt (K := ℝ).2 hlo
  replace hhi := Rat.cast_lt (K := ℝ).2 hhi
  push_cast at hlo hhi
  have hP : (0 : ℝ) < gainSquared := by
    have h : 0 < gainSquared := Finset.prod_pos fun i _ => by positivity
    exact mod_cast h
  rw [prod_sqrt_eq_sqrt_gainSquared]
  refine abs_sub_div_lt_half (Real.sqrt_pos.2 hP) (lt_of_pow_lt_pow_left₀ 2 (by positivity) ?below)
    (lt_of_pow_lt_pow_left₀ 2 (by positivity) ?above)
  case below => rwa [mul_pow, Real.sq_sqrt hP.le]
  case above => rwa [mul_pow, Real.sq_sqrt hP.le]

end Sys2Proof.Machine
end

section
/-! Proofs of the memory family: the sightings still to come from a pipeline, and the one response of an accepted request. -/

namespace Sys2Proof.Machine

theorem Pins.accepts_eq_true_iff (p : Pins) : p.accepts = true ↔ p.inValid = true ∧ p.rst = false := by
  simp [Pins.accepts, Pins.inReady]

/-- What the host will sample `j` edges after the next one, of the response now `j` slots before the last, while `ps` is driven: a
reset at one of the `j` edges before it loses the response (R178). -/
def State.due (s : State) (ps : List Pins) (j : Nat) : List Sighting :=
  if (ps.take j).all fun p => !p.rst then
    match s.slots[Config.latency - 1 - j]'(by have := Config.latency_pos; omega) with
    | .empty => []
    | .full rsp => [⟨s.edgeCount + 1 + j, rsp⟩]
  else []

/-- The sightings still to come of what the slots hold, the last slot's first, while `ps` is driven. -/
def State.inFlight (s : State) (ps : List Pins) : List Sighting :=
  (List.range Config.latency).flatMap (s.due ps)

theorem State.due_zero {s : State} (ps : List Pins) (hs : s.resetSeen = true) : s.due ps 0 = s.sighting := by
  rw [State.sighting, if_pos hs]
  rfl

/-- An edge brings what is due one edge nearer, or, with `rst` = 1, loses it on both sides. -/
theorem State.due_after {s : State} (p : Pins) (ps : List Pins) {j : Nat} (hj : j + 1 < Config.latency) :
    (s.after p).due ps j = s.due (p :: ps) (j + 1) := by
  cases hr : p.rst
  case true => simp [State.due, hr, State.after_slot_of_reset hr]
  case false =>
    obtain ⟨k, hk⟩ : ∃ k, Config.latency - 1 - j = k + 1 := ⟨Config.latency - 1 - (j + 1), by omega⟩
    have hk' : Config.latency - 1 - (j + 1) = k := by omega
    have hcount : s.edgeCount + 1 + 1 + j = s.edgeCount + 1 + (j + 1) := by omega
    simp only [State.due, hk, hk', State.after_slot_succ hr, State.after_edgeCount, hcount, List.take_succ_cons,
      List.all_cons, hr, Bool.not_false, Bool.true_and]

/-- The request of an edge is due last, and only if it was accepted: this is `promised`'s own head. -/
theorem State.due_after_entering (s : State) (p : Pins) (ps : List Pins) :
    (s.after p).due ps (Config.latency - 1) =
      if p.accepts && noResetInFlight ps then [⟨s.edgeCount + 1 + Config.latency, requestResponse p.req⟩] else [] := by
  have hcount : s.edgeCount + 1 + 1 + (Config.latency - 1) = s.edgeCount + 1 + Config.latency := rfl
  cases hr : p.rst
  case true => simp [State.due, State.after_slot_of_reset hr, Pins.accepts, Pins.inReady, hr]
  case false =>
    cases hv : p.inValid <;>
      simp [State.due, State.after_slot_zero hr, Pins.accepts, Pins.inReady, noResetInFlight, hr, hv, hcount]

/-- An edge moves the host's one sighting out of what is to come, and the request's promise into what is in flight. -/
theorem State.inFlight_append_promised {s : State} (p : Pins) (ps : List Pins) (hs : s.resetSeen = true) :
    s.inFlight (p :: ps) ++ promised (s.edgeCount + 1) (p :: ps) =
      s.sighting ++ ((s.after p).inFlight ps ++ promised (s.edgeCount + 1 + 1) ps) := by
  have hfirst : List.range Config.latency = 0 :: (List.range (Config.latency - 1)).map Nat.succ := List.range_succ_eq_map
  have hlast : List.range Config.latency = List.range (Config.latency - 1) ++ [Config.latency - 1] := List.range_succ
  have hrest : (List.range (Config.latency - 1)).flatMap (fun j => s.due (p :: ps) (j + 1)) =
      (List.range (Config.latency - 1)).flatMap ((s.after p).due ps) :=
    List.flatMap_congr fun j hj => (State.due_after p ps (by have := List.mem_range.1 hj; omega)).symm
  have hold : s.inFlight (p :: ps) =
      s.sighting ++ (List.range (Config.latency - 1)).flatMap ((s.after p).due ps) := by
    rw [State.inFlight, hfirst, List.flatMap_cons, List.flatMap_map, State.due_zero _ hs, hrest]
  have hnew : (s.after p).inFlight ps =
      (List.range (Config.latency - 1)).flatMap ((s.after p).due ps) ++ (s.after p).due ps (Config.latency - 1) := by
    rw [State.inFlight, hlast, List.flatMap_append, List.flatMap_singleton]
  rw [hold, hnew, promised, State.due_after_entering]
  simp only [List.append_assoc]

theorem State.edge_of_mem_sighting {s : State} {v : Sighting} (hv : v ∈ s.sighting) : v.edge = s.edgeCount + 1 := by
  unfold State.sighting at hv
  split at hv
  · split at hv
    · cases hv
    · rw [List.mem_singleton.1 hv]
  · cases hv

theorem State.lt_edge_of_mem_inFlight {s : State} {ps : List Pins} {v : Sighting} (hv : v ∈ s.inFlight ps) :
    s.edgeCount < v.edge := by
  obtain ⟨j, -, hj⟩ := List.mem_flatMap.1 hv
  unfold State.due at hj
  split at hj
  · split at hj
    · cases hj
    · rw [List.mem_singleton.1 hj]
      exact Nat.lt_add_right j s.edgeCount.lt_succ_self
  · cases hj

theorem State.inFlight_of_allEmpty {s : State} (hs : AllEmpty s) (ps : List Pins) : s.inFlight ps = [] := by
  refine List.flatMap_eq_nil_iff.2 fun j _ => ?_
  simp [State.due, hs (Config.latency - 1 - j)]

/-- From any slots, a host that samples while `ps` is driven, up to the edge numbered `last`, sees what was in flight and what `ps`
promises, as far as it is due by then. -/
theorem observe_eq_filter_inFlight_append_promised (last : Nat) (ps : List Pins) : ∀ s : State,
    s.resetSeen = true → s.drive = ps → s.edgeCount + ps.length = last →
      observe ps.length s = (s.inFlight ps ++ promised (s.edgeCount + 1) ps).filter fun v => v.edge ≤ last := by
  induction ps with
  | nil =>
    intro s _ _ hlast
    refine (List.filter_eq_nil_iff.2 fun v hv => ?_).symm
    have hlt : s.edgeCount < v.edge := State.lt_edge_of_mem_inFlight (by simpa [promised] using hv)
    simpa [← hlast] using hlt
  | cons p ps ih =>
    intro s hs hd hlast
    rw [List.length_cons] at hlast
    have hnow : s.sighting.filter (fun v => v.edge ≤ last) = s.sighting := by
      refine List.filter_eq_self.2 fun v hv => decide_eq_true ?_
      rw [State.edge_of_mem_sighting hv]
      omega
    have hlater := ih (s.after p) (State.after_resetSeen p hs) (by simp [hd]) (by rw [State.after_edgeCount]; omega)
    rw [State.after_edgeCount] at hlater
    calc observe (ps.length + 1) s
        = s.sighting ++ observe ps.length (s.after p) := by rw [observe_succ _ hs, State.nextPins_of_cons hd]
      _ = (s.sighting ++ ((s.after p).inFlight ps ++ promised (s.edgeCount + 1 + 1) ps)).filter
            fun v => v.edge ≤ last := by rw [List.filter_append, hnow, hlater]
      _ = (s.inFlight (p :: ps) ++ promised (s.edgeCount + 1) (p :: ps)).filter
            fun v => v.edge ≤ last := by rw [State.inFlight_append_promised p ps hs]

/-- A promise of lines driven from edge `n` on is due LATENCY edges after `n` or later. -/
theorem le_edge_of_mem_promised {v : Sighting} (ps : List Pins) : ∀ n : Nat,
    v ∈ promised n ps → n + Config.latency ≤ v.edge := by
  induction ps with
  | nil => intro n hv; cases hv
  | cons p ps ih =>
    intro n hv
    rcases List.mem_append.1 hv with hv | hv
    · split at hv
      · rw [List.mem_singleton.1 hv]
      · cases hv
    · have hle := ih (n + 1) hv
      omega

theorem promised_pairwise_edge_lt (ps : List Pins) : ∀ n : Nat,
    (promised n ps).Pairwise fun v w => v.edge < w.edge := by
  induction ps with
  | nil => intro n; exact .nil
  | cons p ps ih =>
    intro n
    rw [promised]
    split
    · refine List.pairwise_cons.2 ⟨fun w hw => ?_, ih (n + 1)⟩
      have hle := le_edge_of_mem_promised ps (n + 1) hw
      exact (by omega : n + Config.latency < w.edge)
    · exact ih (n + 1)

/-- Settles O19: empty slots have nothing in flight, so all that is seen is what the lines promise. -/
theorem hostSeesExactlyThePromisedResponses : Obligations.HostSeesExactlyThePromisedResponses := by
  intro s ps hempty hs hd
  refine ⟨?_, promised_pairwise_edge_lt ps _⟩
  rw [observe_eq_filter_inFlight_append_promised _ ps s hs hd rfl, State.inFlight_of_allEmpty hempty, List.nil_append]

/-- R178, the surviving case: with no reset in flight an accepted request's response is in the last slot LATENCY edges later. -/
theorem run_latency_of_accepts {s : State} {p : Pins} {ps : List Pins} (hd : s.drive = p :: ps)
    (hlen : Config.latency - 1 ≤ ps.length) (hs : s.resetSeen = true) (hp : p.accepts = true)
    (hps : noResetInFlight ps = true) :
    ∃ t : State, Host.Core.run core Config.latency s = .next t ∧ t.lastSlot = .full (requestResponse p.req) := by
  obtain ⟨hv, hr⟩ := (Pins.accepts_eq_true_iff p).1 hp
  have hstep : step s = .next (s.after p) := by rw [step_eq_after hs, State.nextPins_of_cons hd]
  have hquiet : ∀ q ∈ (s.after p).drive.take (Config.latency - 1), q.rst = false := by
    simpa [noResetInFlight, hd] using hps
  obtain ⟨t, hrun, -, hslot⟩ := slot_carried (Config.latency - 1) (s.after p) 0 (by decide)
    (State.after_resetSeen p hs) (by simpa [hd] using hlen) hquiet
  refine ⟨t, (run_succ (Config.latency - 1) hstep).trans hrun, ?_⟩
  rw [State.after_slot_zero hr, if_pos hv] at hslot
  simpa [State.lastSlot] using hslot

/-- Settles O21: each run ends with the response of its own request in the last slot, and the requests are the same. -/
theorem responseIndependentOfOtherRequests : Obligations.ResponseIndependentOfOtherRequests := by
  intro s₁ s₂ p₁ p₂ ps₁ ps₂ hd₁ hd₂ hlen₁ hlen₂ hs₁ hs₂ hp₁ hp₂ hreq hps₁ hps₂
  obtain ⟨t₁, hrun₁, hlast₁⟩ := run_latency_of_accepts hd₁ hlen₁ hs₁ hp₁ hps₁
  obtain ⟨t₂, hrun₂, hlast₂⟩ := run_latency_of_accepts hd₂ hlen₂ hs₂ hp₂ hps₂
  refine ⟨t₁, t₂, hrun₁, hrun₂, t₁.outValid_eq_true_iff.2 ⟨_, hlast₁⟩, t₂.outValid_eq_true_iff.2 ⟨_, hlast₂⟩, ?_⟩
  rw [State.outPorts_of_full hlast₁, State.outPorts_of_full hlast₂, hreq]

end Sys2Proof.Machine
end

section
/-! Proofs of the encoding family, the words: where the fields of the request and the response word stand (R50, R51). -/

namespace Sys2Proof

open Sys2Proof.Machine

/-- A field put in front of `n` bits counts 2^n times. -/
theorem toNat_append_eq_add {m n : Nat} (u : BitVec m) (v : BitVec n) :
    (u ++ v).toNat = u.toNat * 2 ^ n + v.toNat := by
  rw [BitVec.toNat_append, ← Nat.shiftLeft_add_eq_or_of_lt v.isLt, Nat.shiftLeft_eq]

theorem Request.toWord_toNat (r : Request) :
    r.toWord.toNat = r.op.toNat * 2 ^ 96 + r.c.toNat * 2 ^ 64 + r.b.toNat * 2 ^ 32 + r.a.toNat := by
  simp only [Request.toWord, toNat_append_eq_add]
  ring

/-- The fields of a word whose three 32-bit fields stand below `k` leading bits (R50, R51). -/
theorem extract_append_fields {k : Nat} (u : BitVec k) (c b a : Word) :
    (∀ start len : Nat, (u ++ c ++ b ++ a).extractLsb' (96 + start) len = u.extractLsb' start len) ∧
    (u ++ c ++ b ++ a).extractLsb' 64 32 = c ∧ (u ++ c ++ b ++ a).extractLsb' 32 32 = b ∧
    (u ++ c ++ b ++ a).extractLsb' 0 32 = a := by
  refine ⟨fun start len => ?_, ?_, ?_, ?_⟩
  · rw [BitVec.extractLsb'_append_eq_of_le (by omega), BitVec.extractLsb'_append_eq_of_le (by omega),
      BitVec.extractLsb'_append_eq_of_le (by omega)]
    congr 1
    omega
  all_goals simp [BitVec.extractLsb'_append_eq_of_le, BitVec.extractLsb'_append_eq_of_add_le]

theorem append_extract_fields {k : Nat} (w : BitVec (k + 32 + 32 + 32)) :
    w.extractLsb' 96 k ++ w.extractLsb' 64 32 ++ w.extractLsb' 32 32 ++ w.extractLsb' 0 32 = w := by
  simp only [BitVec.extractLsb'_append_extractLsb'_eq_extractLsb', BitVec.extractLsb'_eq_self]

@[simp] theorem Request.ofWord_toWord (r : Request) : Request.ofWord r.toWord = r := by
  obtain ⟨hlead, hc, hb, ha⟩ := extract_append_fields r.op r.c r.b r.a
  have hop : r.toWord.extractLsb' 96 4 = r.op := (hlead 0 4).trans BitVec.extractLsb'_eq_self
  simp only [Request.ofWord, hop]
  simp only [Request.toWord, hc, hb, ha]

@[simp] theorem Request.toWord_ofWord (w : BitVec 100) : (Request.ofWord w).toWord = w :=
  append_extract_fields (k := 4) w

theorem Machine.Response.toWord_toNat (rsp : Response) :
    rsp.toWord.toNat =
      rsp.err.toNat * 2 ^ 100 + rsp.op.toNat * 2 ^ 96 + rsp.r2.toNat * 2 ^ 64 + rsp.r1.toNat * 2 ^ 32 + rsp.r0.toNat := by
  simp only [Response.toWord, toNat_append_eq_add, BitVec.toNat_ofBool]
  ring

theorem ofBool_getLsbD {n : Nat} (w : BitVec n) (k : Nat) :
    BitVec.ofBool (w.getLsbD k) = w.extractLsb' k 1 := by
  ext i hi
  obtain rfl : i = 0 := by omega
  simp

theorem Machine.Response.ofWord_toWord (rsp : Response) : Response.ofWord rsp.toWord = rsp := by
  obtain ⟨hlead, hr2, hr1, hr0⟩ := extract_append_fields (BitVec.ofBool rsp.err ++ rsp.op) rsp.r2 rsp.r1 rsp.r0
  have hop : rsp.toWord.extractLsb' 96 4 = rsp.op := (hlead 0 4).trans BitVec.extractLsb'_append_eq_right
  have herr : rsp.toWord.getLsbD 100 = rsp.err :=
    BitVec.ofBool_eq_iff_eq.1 ((ofBool_getLsbD _ 100).trans ((hlead 4 1).trans BitVec.extractLsb'_append_eq_left))
  simp only [Response.ofWord, hop, herr]
  simp only [Response.toWord, hr2, hr1, hr0]

theorem Machine.Response.toWord_ofWord (w : BitVec 101) : (Response.ofWord w).toWord = w := by
  have hlead : BitVec.ofBool (w.getLsbD 100) ++ w.extractLsb' 96 4 = w.extractLsb' 96 5 := by
    rw [ofBool_getLsbD]
    exact BitVec.extractLsb'_append_extractLsb'_eq_extractLsb' rfl
  simp only [Response.toWord, Response.ofWord, hlead]
  exact append_extract_fields (k := 5) w

/-- Settles O7: a word is its fields appended, so each stands at its place, and taking a word apart is its inverse. -/
theorem requestAndResponseWordLayout : Obligations.RequestAndResponseWordLayout :=
  ⟨fun r => ⟨r.toWord_toNat, r.ofWord_toWord⟩, Request.toWord_ofWord,
    fun rsp => ⟨rsp.toWord_toNat, rsp.ofWord_toWord⟩, Response.toWord_ofWord⟩

end Sys2Proof
end

section
/-! Proofs of the encoding family, the decoder: one equation for each row of the opcode table, and the split into rows. -/

namespace Sys2Proof

open Sys2Proof.Machine

/-- To show a fact of every op code, show it of each row of spec/opcode_table.json (R52). -/
theorem Opcode.row_cases {motive : Opcode → Prop} (rot : motive 0x0#4) (vec : motive 0x1#4) (qnorm : motive 0x2#4)
    (rnd : motive 0x3#4) (mag : motive 0x4#4) (magw : motive 0x5#4) (phase16 : motive 0x6#4) (phase24 : motive 0x7#4)
    (sincos24 : motive 0x8#4) (reserved9 : motive 0x9#4)
    (reservedAB : ∀ op : Opcode, op = 0xA#4 ∨ op = 0xB#4 → motive op)
    (reservedCF : ∀ op : Opcode, 0xC ≤ op.toNat → motive op) (op : Opcode) : motive op := by
  have hrow : op = 0x0#4 ∨ op = 0x1#4 ∨ op = 0x2#4 ∨ op = 0x3#4 ∨ op = 0x4#4 ∨ op = 0x5#4 ∨ op = 0x6#4 ∨ op = 0x7#4 ∨
      op = 0x8#4 ∨ op = 0x9#4 ∨ (op = 0xA#4 ∨ op = 0xB#4) ∨ 0xC ≤ op.toNat := by
    revert op
    decide
  rcases hrow with rfl | rfl | rfl | rfl | rfl | rfl | rfl | rfl | rfl | rfl | hAB | hCF
  exacts [rot, vec, qnorm, rnd, mag, magw, phase16, phase24, sincos24, reserved9, reservedAB op hAB, reservedCF op hCF]

/-- The codes of the table's two-code row are reserved codes. -/
theorem nine_le_of_reservedAB {op : Opcode} (h : op = 0xA#4 ∨ op = 0xB#4) : 9 ≤ op.toNat := by
  rcases h with rfl | rfl <;> decide

section Rows

variable (c b a : Word)

@[simp] theorem decodeRequest_rot : decodeRequest ⟨0x0#4, c, b, a⟩ = .rot a b c := rfl
@[simp] theorem decodeRequest_vec : decodeRequest ⟨0x1#4, c, b, a⟩ = .vec a b c := rfl
@[simp] theorem decodeRequest_qnorm : decodeRequest ⟨0x2#4, c, b, a⟩ = .qnorm a b := rfl
@[simp] theorem decodeRequest_rnd : decodeRequest ⟨0x3#4, c, b, a⟩ = .rnd (b ++ a) c := rfl
@[simp] theorem decodeRequest_mag : decodeRequest ⟨0x4#4, c, b, a⟩ = .mag (lowSample a) (lowSample b) := rfl
@[simp] theorem decodeRequest_magw : decodeRequest ⟨0x5#4, c, b, a⟩ = .magw (lowSample a) (lowSample b) := rfl
@[simp] theorem decodeRequest_phase16 : decodeRequest ⟨0x6#4, c, b, a⟩ = .phase16 (lowSample a) (lowSample b) := rfl
@[simp] theorem decodeRequest_phase24 : decodeRequest ⟨0x7#4, c, b, a⟩ = .phase24 (lowSample a) (lowSample b) := rfl
@[simp] theorem decodeRequest_sincos24 : decodeRequest ⟨0x8#4, c, b, a⟩ = .sincos24 (lowAngle a) := rfl
@[simp] theorem decodeRequest_reserved9 : decodeRequest ⟨0x9#4, c, b, a⟩ = .reserved9 := rfl

theorem decodeRequest_reservedAB {op : Opcode} (h : op = 0xA#4 ∨ op = 0xB#4) :
    decodeRequest ⟨op, c, b, a⟩ = .reservedAB op := by
  rcases h with rfl | rfl <;> rfl

theorem decodeRequest_reservedCF {op : Opcode} (h : 0xC ≤ op.toNat) :
    decodeRequest ⟨op, c, b, a⟩ = .reservedCF op := by
  have hcode : op = 0xC#4 ∨ op = 0xD#4 ∨ op = 0xE#4 ∨ op = 0xF#4 := by
    revert op
    decide
  rcases hcode with rfl | rfl | rfl | rfl <;> rfl

end Rows

@[simp] theorem decode_toWord (r : Request) : decode r.toWord = decodeRequest r := by
  rw [decode, Request.ofWord_toWord]

/-- Settles O3: decoding a word is decoding its fields, row by row. -/
theorem decodeNamesOperationAndOperands : Obligations.DecodeNamesOperationAndOperands := by
  intro c b a
  simp only [decode_toWord]
  exact ⟨decodeRequest_rot c b a, decodeRequest_vec c b a, decodeRequest_qnorm c b a, decodeRequest_rnd c b a,
    decodeRequest_mag c b a, decodeRequest_magw c b a, decodeRequest_phase16 c b a, decodeRequest_phase24 c b a,
    decodeRequest_sincos24 c b a, decodeRequest_reserved9 c b a, fun _ h => decodeRequest_reservedAB c b a h,
    fun _ h => decodeRequest_reservedCF c b a h⟩

/-- Settles O6: the words are closed, and each is decoded by evaluation. -/
theorem decodeOfSpecWords : Obligations.DecodeOfSpecWords := by
  unfold Obligations.DecodeOfSpecWords
  decide

/-- The upper half of a sign-extended sample is cut off again (R53, R59). -/
@[simp] theorem lowSample_signExtend (v : Sample) : lowSample (v.signExtend 32) = v := by
  ext i hi
  have hi' : i < 32 := by omega
  simp [lowSample, BitVec.getLsbD_eq_getElem hi', BitVec.getElem_signExtend, hi]

@[simp] theorem lowAngle_setWidth (theta : Angle) : lowAngle (theta.setWidth 32) = theta := by
  ext i hi
  have hi' : i < 32 := by omega
  simp [lowAngle, hi, hi']

/-- Wrapping to a field first does not change the low 24 bits of an angle (R59). -/
@[simp] theorem lowAngle_operandWord (v : Int) : lowAngle (operandWord v) = .ofInt 24 v := by
  apply BitVec.eq_of_toNat_eq
  simp only [lowAngle, operandWord, BitVec.extractLsb'_toNat, BitVec.toNat_ofInt]
  omega

/-- The two halves an RND's value is written in are put together again (R53). -/
@[simp] theorem halves_append (value : Wide) : value.extractLsb' 32 32 ++ value.extractLsb' 0 32 = value :=
  BitVec.extractLsb'_append_extractLsb'

/-- A request encodes its instruction's operands at the fields the decoder reads them from. -/
theorem decodeRequest_encodeRequest {i : Instr} (hi : i.wf = true) : decodeRequest (encodeRequest i) = i := by
  cases i with
  | rot x0 y0 z0 => rfl
  | vec x0 y0 z0 => rfl
  | qnorm x y => rfl
  | rnd value bits => simp [encodeRequest]
  | mag x y => simp [encodeRequest]
  | magw x y => simp [encodeRequest]
  | phase16 x y => simp [encodeRequest]
  | phase24 x y => simp [encodeRequest]
  | sincos24 theta => simp [encodeRequest]
  | reserved9 => rfl
  | reservedAB op => exact decodeRequest_reservedAB _ _ _ (by simpa [Instr.wf] using hi)
  | reservedCF op => exact decodeRequest_reservedCF _ _ _ (by simpa [Instr.wf] using hi)

/-- Settles O1: the word carries the request unchanged, and the request the instruction. -/
theorem decodeOfEncodeIsIdentity : Obligations.DecodeOfEncodeIsIdentity := by
  intro i hi
  rw [encode, decode_toWord, decodeRequest_encodeRequest hi]

@[simp] theorem Machine.Pins.request_req (r : Request) : (Pins.request r).req = r := rfl

theorem assemble_issues {l : Line} (hidle : l ≠ .idle) (hreset : l ≠ .reset) :
    ∃ r : Request, assemble l = .request r := by
  cases l with
  | idle => exact absurd rfl hidle
  | reset => exact absurd rfl hreset
  | _ => exact ⟨_, rfl⟩

/-- Settles O8: a line's request has its op code and operands at their fields, where the decoder reads them. -/
theorem assembledLinesIssueTheirOperations : Obligations.AssembledLinesIssueTheirOperations := by
  refine ⟨fun l hidle hreset => ?issues, ?rot, ?vec, ?qnorm, ?rnd, ?mag, ?magw, ?phase16, ?phase24, ?sincos24, ?req,
    ?idle, ?reset, ?phase16Word⟩
  case issues =>
    obtain ⟨r, hr⟩ := assemble_issues hidle hreset
    rw [hr]
    exact ⟨rfl, rfl⟩
  case req => exact fun r => rfl
  case idle => exact ⟨rfl, rfl⟩
  case reset => rfl
  case phase16Word => decide
  case rot => exact fun x y z => decode_toWord _
  case vec => exact fun x y z => decode_toWord _
  case qnorm => exact fun x y => decode_toWord _
  case sincos24 => simp [assemble]
  case rnd => simp [assemble, operandWord]
  case mag | magw | phase16 | phase24 => simp [assemble, operandSample]

end Sys2Proof
end

section
/-! Proofs of the encoding family, the ignored bits: what the masks of R53 keep, and the opcode table's rows as tests of op. -/

namespace Sys2Proof

open Sys2Proof.Machine

/-- A request with each field cut by the same field of `m`. -/
def Request.and (r m : Request) : Request :=
  ⟨r.op &&& m.op, r.c &&& m.c, r.b &&& m.b, r.a &&& m.a⟩

theorem Request.ofWord_and (w mask : BitVec 100) : Request.ofWord (w &&& mask) = (Request.ofWord w).and (.ofWord mask) := by
  simp only [Request.ofWord, Request.and, BitVec.extractLsb'_and]

theorem Request.ofWord_inj {w w' : BitVec 100} : Request.ofWord w = Request.ofWord w' ↔ w = w' :=
  (Function.LeftInverse.injective Request.toWord_ofWord).eq_iff

/-- Two words agree under a mask exactly when each field does. -/
theorem and_mask_eq_iff (w w' mask : BitVec 100) :
    w &&& mask = w' &&& mask ↔
      (Request.ofWord w).and (.ofWord mask) = (Request.ofWord w').and (.ofWord mask) := by
  rw [← Request.ofWord_and, ← Request.ofWord_and, Request.ofWord_inj]

/-- A mask of the low `n` bits keeps what a read of them gives. -/
theorem and_lowMask (u : Word) (n : Nat) : u &&& (BitVec.allOnes n).setWidth 32 = (u.extractLsb' 0 n).setWidth 32 := by
  ext i hi
  simp [BitVec.getLsbD_eq_getElem hi, Bool.and_comm]

/-- Two fields agree in their low `n` bits exactly when the reads of those bits do. -/
theorem extractLsb'_eq_iff_and_lowMask {n : Nat} (hn : n ≤ 32) (u v : Word) :
    u.extractLsb' 0 n = v.extractLsb' 0 n ↔
      u &&& (BitVec.allOnes n).setWidth 32 = v &&& (BitVec.allOnes n).setWidth 32 := by
  rw [and_lowMask, and_lowMask]
  refine ⟨congrArg _, fun h => ?_⟩
  simpa [hn] using congrArg (BitVec.setWidth n) h

theorem lowSample_eq_iff (u v : Word) : lowSample u = lowSample v ↔ u &&& 0xFFFF#32 = v &&& 0xFFFF#32 :=
  extractLsb'_eq_iff_and_lowMask (by decide) u v

theorem lowAngle_eq_iff (u v : Word) : lowAngle u = lowAngle v ↔ u &&& 0xFFFFFF#32 = v &&& 0xFFFFFF#32 :=
  extractLsb'_eq_iff_and_lowMask (by decide) u v

theorem and_fullMask (u : Word) : u &&& 0xFFFFFFFF#32 = u :=
  BitVec.and_allOnes

theorem word_append_inj (b a b' a' : Word) : b ++ a = b' ++ a' ↔ b = b' ∧ a = a' := by
  refine ⟨fun h => ⟨?_, ?_⟩, fun ⟨hb, ha⟩ => hb ▸ ha ▸ rfl⟩
  · simpa using congrArg highWord h
  · simpa using congrArg lowWord h

/-- A request's code stands in its instruction (R52); a reserved row keeps it as its operand. -/
@[simp] theorem decodeRequest_op (r : Request) : (decodeRequest r).op = r.op := by
  obtain ⟨op, c, b, a⟩ := r
  cases op using Opcode.row_cases with
  | reservedAB op h => rw [decodeRequest_reservedAB c b a h]; rfl
  | reservedCF op h => rw [decodeRequest_reservedCF c b a h]; rfl
  | _ => rfl

theorem decodeRequest_wf (r : Request) : (decodeRequest r).wf = true := by
  obtain ⟨op, c, b, a⟩ := r
  cases op using Opcode.row_cases with
  | reservedAB op h => rw [decodeRequest_reservedAB c b a h]; simpa [Instr.wf] using h
  | reservedCF op h => rw [decodeRequest_reservedCF c b a h]; simpa [Instr.wf] using h
  | _ => rfl

/-- A reserved code is all its request says (R53). -/
theorem readMask_of_reserved {op : Opcode} (h : 9 ≤ op.toNat) :
    Request.ofWord (readMask op) = ⟨0xF#4, 0#32, 0#32, 0#32⟩ := by
  revert op
  decide

/-- Every operation reads the whole op field (R58). -/
theorem Request.and_readMask_op (r : Request) (op : Opcode) : (r.and (.ofWord (readMask op))).op = r.op := by
  have hmask : (Request.ofWord (readMask op)).op = BitVec.allOnes 4 := by
    revert op
    decide
  rw [Request.and, hmask, BitVec.and_allOnes]

/-- Row by row, what the decoder takes from the operand fields is what R53's mask keeps of them. -/
theorem decodeRequest_eq_iff_of_op (op : Opcode) (c b a c' b' a' : Word) :
    decodeRequest ⟨op, c, b, a⟩ = decodeRequest ⟨op, c', b', a'⟩ ↔
      (⟨op, c, b, a⟩ : Request).and (.ofWord (readMask op)) = (⟨op, c', b', a'⟩ : Request).and (.ofWord (readMask op)) := by
  cases op using Opcode.row_cases with
  | reservedAB op h =>
    simp [decodeRequest_reservedAB _ _ _ h, Request.and, readMask_of_reserved (nine_le_of_reservedAB h)]
  | reservedCF op h =>
    simp [decodeRequest_reservedCF _ _ _ h, Request.and, readMask_of_reserved (op := op) (by omega)]
  | rot | vec | qnorm => simp [Request.and, Request.ofWord, readMask, and_fullMask, and_assoc, and_comm]
  | rnd => simp [Request.and, Request.ofWord, readMask, and_fullMask, word_append_inj, and_comm]
  | mag | magw | phase16 | phase24 => simp [Request.and, Request.ofWord, readMask, lowSample_eq_iff, and_comm]
  | sincos24 => simp [Request.and, Request.ofWord, readMask, lowAngle_eq_iff]
  | reserved9 => simp [Request.and, Request.ofWord, readMask]

theorem decodeRequest_eq_iff (r r' : Request) :
    decodeRequest r = decodeRequest r' ↔ r.and (.ofWord (readMask r.op)) = r'.and (.ofWord (readMask r.op)) := by
  have hop_of_decode : decodeRequest r = decodeRequest r' → r.op = r'.op := fun h => by
    simpa using congrArg Instr.op h
  have hop_of_mask : r.and (.ofWord (readMask r.op)) = r'.and (.ofWord (readMask r.op)) → r.op = r'.op := fun h => by
    simpa [Request.and_readMask_op] using congrArg Request.op h
  by_cases hop : r.op = r'.op
  · obtain ⟨op, c, b, a⟩ := r
    obtain ⟨op', c', b', a'⟩ := r'
    obtain rfl : op = op' := hop
    exact decodeRequest_eq_iff_of_op op c b a c' b' a'
  · exact iff_of_false (mt hop_of_decode hop) (mt hop_of_mask hop)

/-- Words are one operation exactly when they agree on the bits it reads (R56). -/
theorem decode_eq_iff (w w' : BitVec 100) :
    decode w = decode w' ↔ w &&& readMask (w.extractLsb' 96 4) = w' &&& readMask (w.extractLsb' 96 4) := by
  rw [and_mask_eq_iff]
  exact decodeRequest_eq_iff (.ofWord w) (.ofWord w')

/-- Settles O2: by O1 the word and its instruction's encoding decode to one term, and so agree on the bits read. -/
theorem encodeOfDecodeKeepsReadBits : Obligations.EncodeOfDecodeKeepsReadBits := by
  intro w
  have hwf : (decode w).wf = true := decodeRequest_wf _
  have hsame : decode w = decode (encode (decode w)) := (decodeOfEncodeIsIdentity _ hwf).symm
  exact ⟨hwf, ((decode_eq_iff w _).1 hsame).symm⟩

/-- The masks and patterns of the table test op alone (R52). -/
theorem covers_toWord {row : OpcodeRow} (hrow : row ∈ opcodeTable) (r : Request) :
    row.covers r.toWord = true ↔ r.op &&& (Request.ofWord row.mask).op = (Request.ofWord row.pattern).op := by
  have hfields : (Request.ofWord row.mask = ⟨(Request.ofWord row.mask).op, 0#32, 0#32, 0#32⟩) ∧
      Request.ofWord row.pattern = ⟨(Request.ofWord row.pattern).op, 0#32, 0#32, 0#32⟩ := by
    revert row
    decide
  obtain ⟨hmask, hpattern⟩ := hfields
  rw [OpcodeRow.covers, beq_iff_eq, ← Request.ofWord_inj, Request.ofWord_and, Request.ofWord_toWord, hmask, hpattern]
  simp [Request.and]

/-- The row of a request does not depend on its operands. -/
theorem decodeRequest_row (r : Request) : (decodeRequest r).row = (decodeRequest ⟨r.op, 0#32, 0#32, 0#32⟩).row := by
  obtain ⟨op, c, b, a⟩ := r
  cases op using Opcode.row_cases with
  | reservedAB op h => rw [decodeRequest_reservedAB c b a h, decodeRequest_reservedAB _ _ _ h]
  | reservedCF op h => rw [decodeRequest_reservedCF c b a h, decodeRequest_reservedCF _ _ _ h]
  | _ => simp [Instr.row]

/-- The sixteen codes against the twelve rows. -/
theorem op_in_row_iff : ∀ (op : Opcode) (n : Fin 12),
    op &&& (Request.ofWord opcodeTable[n].mask).op = (Request.ofWord opcodeTable[n].pattern).op ↔
      (decodeRequest ⟨op, 0#32, 0#32, 0#32⟩).row = n := by
  decide +kernel

/-- Settles O5: a row tests op alone, and so does the row an instruction is from; the codes are compared one by one. -/
theorem opcodeTableRowsPartitionTheWords : Obligations.OpcodeTableRowsPartitionTheWords := by
  refine ⟨rfl, fun w n row hrow => ?_⟩
  obtain ⟨hn, rfl⟩ := List.getElem?_eq_some_iff.1 hrow
  have hcovers := covers_toWord (List.getElem_mem hn) (.ofWord w)
  rw [Request.toWord_ofWord] at hcovers
  rw [hcovers, decode, decodeRequest_row]
  exact op_in_row_iff (Request.ofWord w).op ⟨n, hn⟩

end Sys2Proof
end

section
/-! Proofs of the encoding family, the responses: the op echo, the zero fields and the bounds of R54, and the error responses. -/

namespace Sys2Proof.Machine

theorem requestResponse_eq (r : Request) : requestResponse r = responseOf (decodeRequest r) := by
  rw [requestResponse, decode_toWord]

section Rnd

variable (value : Wide) (bits : Word)

theorem rndResponse_op : (rndResponse value bits).op = 0x3#4 := by
  unfold rndResponse
  split <;> rfl

theorem rndResponse_r2 : (rndResponse value bits).r2 = 0#32 := by
  unfold rndResponse
  split <;> rfl

theorem rndResponse_err : (rndResponse value bits).err = !rndShiftLegal bits := by
  unfold rndResponse
  split <;> simp [*]

end Rnd

/-- Every response echoes its instruction's op (R51). -/
theorem responseOf_op (i : Instr) : (responseOf i).op = i.op := by
  cases i with
  | rnd value bits => exact rndResponse_op value bits
  | _ => rfl

/-- Only the engine's triples and QNORM's quadrant use r2 (R54). -/
theorem responseOf_r2_of_three_le {i : Instr} (h : 3 ≤ i.op.toNat) : (responseOf i).r2 = 0#32 := by
  cases i with
  | rot | vec | qnorm => exact absurd h (by simp [Instr.op])
  | rnd value bits => exact rndResponse_r2 value bits
  | _ => rfl

/-- A response has err = 1 exactly when one of R150's two conditions holds of its instruction. -/
theorem responseOf_err (i : Instr) : (responseOf i).err = !i.legal := by
  cases i with
  | rnd value bits => exact rndResponse_err value bits
  | _ => rfl

theorem rndShiftLegal_iff (bits : Word) : rndShiftLegal bits = true ↔ 1 ≤ bits.toNat ∧ bits.toNat ≤ 63 := by
  simp [rndShiftLegal]

/-- Below the reserved codes only an RND's shift is ever illegal (R150). -/
theorem decodeRequest_illegal_iff {r : Request} (h : r.op.toNat < 9) :
    (decodeRequest r).legal = false ↔ r.op = 0x3#4 ∧ ¬(1 ≤ r.c.toNat ∧ r.c.toNat ≤ 63) := by
  obtain ⟨op, c, b, a⟩ := r
  cases op using Opcode.row_cases with
  | rnd => simp [Instr.legal, ← rndShiftLegal_iff]
  | reserved9 => exact absurd h (Nat.lt_irrefl 9)
  | reservedAB op hAB => exact absurd h (Nat.not_lt.2 (nine_le_of_reservedAB hAB))
  | reservedCF op hCF => exact absurd h (Nat.not_lt.2 (le_trans (by decide) hCF))
  | _ => simp [Instr.legal]

/-- Settles O4: the first two parts are what the masks keep, the third that a response has err = 1 only for an illegal request. -/
theorem decodeIgnoresExactlyTheDontCareBits : Obligations.DecodeIgnoresExactlyTheDontCareBits := by
  refine ⟨decode_eq_iff, fun w₁ w₂ hagree => ?responses, fun r hr => ?illegal⟩
  case responses =>
    rw [requestResponse_eq, requestResponse_eq]
    exact congrArg responseOf ((decode_eq_iff w₁ w₂).2 hagree)
  case illegal =>
    rw [requestResponse_eq, responseOf_err, Bool.not_eq_true', decodeRequest_illegal_iff hr]

theorem toNat_setWidth_le_three (q : BitVec 2) : (q.setWidth 32).toNat ≤ 3 := by
  rw [BitVec.toNat_setWidth_of_le (by decide)]
  omega

/-- A masked 64-bit value keeps below the mask's bound when its low word is taken. -/
theorem toNat_lowWord_and_lt (v m : Wide) {k : Nat} (hm : m.toNat < 2 ^ k) : (lowWord (v &&& m)).toNat < 2 ^ k := by
  have hle : (lowWord (v &&& m)).toNat ≤ (v &&& m).toNat := by
    rw [lowWord, BitVec.extractLsb'_toNat]
    exact Nat.mod_le _ _
  exact hle.trans_lt (Nat.and_lt_two_pow _ hm)

/-- An axis result is 0 or one of the four given (R111). -/
theorem axisPhase_mem {deg0 deg90 deg180 deg270 p : Word} {x y : Sample}
    (h : axisPhase deg0 deg90 deg180 deg270 x y = some p) : p ∈ [0#32, deg0, deg90, deg180, deg270] := by
  unfold axisPhase at h
  split_ifs at h <;> cases h <;> simp

/-- R54: PHASE16's p lies in 16 bits. -/
theorem phase16Value_lt (x y : Sample) : (phase16Value x y).toNat < 2 ^ 16 := by
  have haxis : ∀ p ∈ [0#32, 0#32, 16384#32, 32768#32, 49152#32], p.toNat < 2 ^ 16 := by simp
  unfold phase16Value
  split
  case h_1 p hp => exact haxis p (axisPhase_mem hp)
  case h_2 => exact toNat_lowWord_and_lt _ _ (by decide)

/-- R54: PHASE24's p lies in 24 bits. -/
theorem phase24Value_lt (x y : Sample) : (phase24Value x y).toNat < 2 ^ 24 := by
  have haxis : ∀ p ∈ [0#32, 0x000000#32, 0x400000#32, 0x800000#32, 0xC00000#32], p.toNat < 2 ^ 24 := by simp
  unfold phase24Value
  split
  case h_1 p hp => exact haxis p (axisPhase_mem hp)
  case h_2 => exact toNat_lowWord_and_lt _ _ (by decide)

/-- Settles O29: op and r2 by the instruction, and each bound by the operation that its code names. -/
theorem responsesEchoOpAndZeroUnusedFields : Obligations.ResponsesEchoOpAndZeroUnusedFields := by
  rintro ⟨op, c, b, a⟩
  rw [requestResponse_eq]
  refine ⟨?echo, fun h => ?r2, fun h => ?r1, fun h => ?quadrant, fun h => ?phase16, fun h => ?phase24⟩
  case echo => rw [responseOf_op, decodeRequest_op]
  case r2 => exact responseOf_r2_of_three_le (by rwa [decodeRequest_op])
  case r1 =>
    obtain rfl | rfl | rfl : op = 0x4#4 ∨ op = 0x6#4 ∨ op = 0x7#4 := h
    all_goals rfl
  case quadrant =>
    obtain rfl : op = 0x2#4 := h
    exact toNat_setWidth_le_three _
  case phase16 =>
    obtain rfl : op = 0x6#4 := h
    exact phase16Value_lt _ _
  case phase24 =>
    obtain rfl : op = 0x7#4 := h
    exact phase24Value_lt _ _

theorem responseOf_decodeRequest_of_reserved {r : Request} (h : 9 ≤ r.op.toNat) :
    responseOf (decodeRequest r) = reservedResponse r.op := by
  obtain ⟨op, c, b, a⟩ := r
  cases op using Opcode.row_cases with
  | reserved9 => rfl
  | reservedAB op hAB => rw [decodeRequest_reservedAB c b a hAB]; rfl
  | reservedCF op hCF => rw [decodeRequest_reservedCF c b a hCF]; rfl
  | _ => exact absurd h (by simp)

/-- Settles O30: exec enters the instruction's response, and a reserved row's is the error response with its code. -/
theorem reservedCodesAnswerAnError : Obligations.ReservedCodesAnswerAnError := by
  intro s
  refine ⟨exec_eq_next_clock _ s, fun op _ => exec_eq_next_clock _ s, fun op _ => exec_eq_next_clock _ s, fun r hr => ?_⟩
  rw [exec_eq_next_clock, decode_toWord, responseOf_decodeRequest_of_reserved hr]
  rfl

end Sys2Proof.Machine
end

section
/-! Proofs of the rounding family: the rounding unit as exact round-half-up on integers (R70, R72), and RND (R73). -/

namespace Sys2Proof.Machine

/-- Rounding away k + 1 bits is rounding the last bit of the floor by 2^k; both forms of R70 and the bound of R72 follow from it. -/
theorem round_succ_eq_half (v : Int) (k : Nat) : Reference.round v (k + 1) = (v / 2 ^ k + 1) / 2 := by
  have hdiv : v / 2 ^ (k + 1) = v / 2 ^ k / 2 := by rw [pow_succ, Int.ediv_ediv_of_nonneg (by positivity)]
  rw [Reference.round, Reference.asr, Reference.bit, Nat.add_sub_cancel, hdiv]
  omega

/-- R70's derived form, floor(v / 2^bits + 1/2), over one denominator. -/
theorem round_eq_floor_add_half (v : Int) {bits : Nat} (h : 1 ≤ bits) :
    Reference.round v bits = (2 * v + 2 ^ bits) / 2 ^ (bits + 1) := by
  obtain ⟨k, rfl⟩ := Nat.exists_eq_add_of_le' h
  calc Reference.round v (k + 1)
      = (v / 2 ^ k + 1) / 2 := round_succ_eq_half v k
    _ = (v + 2 ^ k) / 2 ^ k / 2 := by rw [Int.add_ediv_of_dvd_right dvd_rfl, Int.ediv_self (by positivity)]
    _ = (v + 2 ^ k) / 2 ^ (k + 1) := by rw [pow_succ, Int.ediv_ediv_of_nonneg (by positivity)]
    _ = (2 * v + 2 ^ (k + 1)) / 2 ^ (k + 1 + 1) := by
      rw [pow_succ' 2 (k + 1), pow_succ' 2 k, ← mul_add, Int.mul_ediv_mul_of_pos _ _ two_pos, ← pow_succ']

/-- R72's derived bound: the quotient keeps the value's range, and half of it rounds up to 2^62 at most. -/
theorem round_toInt_bounds (value : Wide) {bits : Nat} (h : 1 ≤ bits) :
    -2 ^ 62 ≤ Reference.round value.toInt bits ∧ Reference.round value.toInt bits ≤ 2 ^ 62 := by
  obtain ⟨k, rfl⟩ := Nat.exists_eq_add_of_le' h
  have hlo := (value.sshiftRight k).le_toInt
  have hhi := (value.sshiftRight k).toInt_lt
  rw [toInt_sshiftRight_eq_div] at hlo hhi
  rw [round_succ_eq_half]
  omega

/-- A pattern's low bits do not depend on whether it is read as signed. -/
theorem toInt_emod_two_pow {n m : Nat} (v : BitVec n) (h : m ≤ n) : v.toInt % 2 ^ m = v.toNat % 2 ^ m := by
  have hdvd : (2 : Int) ^ m ∣ (2 ^ n : Nat) := mod_cast pow_dvd_pow 2 h
  rw [BitVec.toInt_eq_toNat_bmod, ← Int.emod_emod_of_dvd _ hdvd, Int.bmod_emod, Int.emod_emod_of_dvd _ hdvd]

theorem toInt_emod_two (v : Wide) : v.toInt % 2 = if v.getLsbD 0 then 1 else 0 := by
  have hmod : v.toInt % 2 = v.toNat % 2 := toInt_emod_two_pow (m := 1) v (by decide)
  rw [hmod, BitVec.getLsbD, Nat.testBit_zero]
  simp only [decide_eq_true_eq]
  split <;> omega

/-- Below the sign's copies a shifted value has the bits it had. -/
theorem getLsbD_sshiftRight_of_lt (v : Wide) {k i : Nat} (h : k + i < 64) :
    (v.sshiftRight k).getLsbD i = v.getLsbD (k + i) := by
  have hi : ¬64 ≤ i := by omega
  rw [BitVec.getLsbD_sshiftRight, if_pos h]
  simp [hi]

/-- The increment of the rounding unit is the bit of R7. -/
theorem toInt_roundIncrement (value : Wide) {k : Nat} (hk : k < 64) :
    (if value.getLsbD k then 1#64 else 0#64).toInt = Reference.bit value.toInt k := by
  rw [Reference.bit, ← toInt_sshiftRight_eq_div, toInt_emod_two, getLsbD_sshiftRight_of_lt value hk, Nat.add_zero]
  split <;> rfl

/-- The 64-bit sum does not wrap, so the unit computes R70 on integers. -/
theorem toInt_roundShift (value : Wide) {bits : Nat} (h1 : 1 ≤ bits) (h63 : bits ≤ 63) :
    (roundShift value bits).toInt = Reference.round value.toInt bits := by
  obtain ⟨hlo, hhi⟩ := round_toInt_bounds value h1
  rw [roundShift, BitVec.toInt_add, toInt_sshiftRight_eq_div, toInt_roundIncrement value (by omega)]
  change (Reference.round value.toInt bits).bmod (2 ^ 64) = _
  exact Int.bmod_eq_of_le (by omega) (by omega)

/-- A 32-bit value keeps its value in the rounding unit (R72). -/
theorem toInt_sextWide (v : Word) : (sextWide v).toInt = v.toInt :=
  BitVec.toInt_signExtend_of_le (by decide)

/-- Settles O32: the unit is `Reference.round` on integers, whose floor form and bounds are integer facts. -/
theorem roundShiftIsExactRoundHalfUp : Obligations.RoundShiftIsExactRoundHalfUp := by
  refine ⟨fun value bits h1 h63 => ?_, toInt_sextWide⟩
  rw [toInt_roundShift value h1 h63]
  exact ⟨rfl, round_eq_floor_add_half value.toInt h1, round_toInt_bounds value h1⟩

/-- The low word of a 64-bit register is its value modulo 2^32 (R54). -/
theorem lowWord_eq_ofInt (v : Wide) : lowWord v = .ofInt 32 v.toInt := by
  apply BitVec.eq_of_toNat_eq
  rw [lowWord, BitVec.extractLsb'_toNat, Nat.shiftRight_zero, BitVec.toNat_ofInt]
  exact (congrArg Int.toNat (toInt_emod_two_pow v (by decide))).symm

theorem highWord_eq_ofInt (v : Wide) : highWord v = .ofInt 32 (v.toInt / 2 ^ 32) := by
  rw [← toInt_sshiftRight_eq_div, ← lowWord_eq_ofInt]
  ext i hi
  simp only [lowWord, highWord, BitVec.getElem_extractLsb', Nat.zero_add]
  exact (getLsbD_sshiftRight_of_lt v (by omega)).symm

theorem rndResponse_of_legal (value : Wide) {bits : Word} (h1 : 1 ≤ bits.toNat) (h63 : bits.toNat ≤ 63) :
    rndResponse value bits =
      ⟨false, 0x3#4, 0#32, .ofInt 32 (Reference.round value.toInt bits.toNat / 2 ^ 32),
        .ofInt 32 (Reference.round value.toInt bits.toNat)⟩ := by
  rw [rndResponse, if_pos ((rndShiftLegal_iff bits).2 ⟨h1, h63⟩), lowWord_eq_ofInt, highWord_eq_ofInt,
    toInt_roundShift value h1 h63, respond]

theorem rndResponse_of_illegal (value : Wide) {bits : Word} (h : bits.toNat < 1 ∨ 63 < bits.toNat) :
    rndResponse value bits = ⟨true, 0x3#4, 0#32, 0#32, 0#32⟩ := by
  rw [rndResponse, if_neg (by rw [rndShiftLegal_iff]; omega), raiseErr]

/-- Settles O31: exec enters the instruction's response, which the range of the shift decides. -/
theorem rndAnswersTheRoundedValue : Obligations.RndAnswersTheRoundedValue := by
  refine ⟨fun c b a => decode_toWord _, fun value bits s => ⟨fun ⟨h1, h63⟩ => ?legal, fun h => ?illegal⟩⟩
  case legal => rw [exec_eq_next_clock, responseOf, rndResponse_of_legal value h1 h63]
  case illegal => rw [exec_eq_next_clock, responseOf, rndResponse_of_illegal value h]

end Sys2Proof.Machine
end

section
/-! Proofs of the engine family: the 32-bit engine as the integer pseudocode of R80 with `wrap_32` (R81 to R87), and ROT and VEC. -/

namespace Sys2Proof.Reference

/-- `wrap_32` (R7) is the library's balanced remainder, which is how the bit-vector lemmas state a wrap. -/
theorem wrap_32_eq_bmod (v : Int) : wrap 32 v = v.bmod (2 ^ 32) := by
  simp only [wrap, Int.bmod_def]
  omega

@[simp] theorem stage_zero (w : Int → Int) (m : Machine.Mode) (t : Triple) : stage w m t 0 = t := rfl

theorem stage_succ (w : Int → Int) (m : Machine.Mode) (t : Triple) (n : Nat) :
    stage w m t (n + 1) = iteration w m n (stage w m t n) := by
  simp only [stage, List.range_succ, List.foldl_append, List.foldl_cons, List.foldl_nil]

end Sys2Proof.Reference

namespace Sys2Proof.Machine

/-- The integers that the engine's registers stand for (R6, R26). -/
def Triple.value (t : Triple) : Reference.Triple :=
  ⟨t.x.toInt, t.y.toInt, t.z.toInt⟩

theorem toInt_add_eq_wrap (u v : Word) : (u + v).toInt = Reference.wrap 32 (u.toInt + v.toInt) := by
  rw [BitVec.toInt_add, Reference.wrap_32_eq_bmod]

theorem toInt_sub_eq_wrap (u v : Word) : (u - v).toInt = Reference.wrap 32 (u.toInt - v.toInt) := by
  rw [BitVec.toInt_sub, Reference.wrap_32_eq_bmod]

theorem toInt_sshiftRight_eq_asr (v : Word) (k : Nat) : (v.sshiftRight k).toInt = Reference.asr v.toInt k :=
  toInt_sshiftRight_eq_div v k

/-- The table's entries are R22's, and beyond it both read as 0. -/
theorem toInt_angleEntry (i : Nat) : (angleEntry i).toInt = Reference.table.getD i 0 := by
  obtain ⟨htable, -⟩ := angleTableValuesAndSum
  rw [← htable, angleEntry]
  exact (List.getD_map _ 0#32 BitVec.toInt).symm

/-- The decision bit reads a register's sign, which is the sign of its integer (R81). -/
theorem decision_eq_reference (m : Mode) (t : Triple) : decision m t = Reference.decision m t.value := by
  cases m
  case rotation => rfl
  case vectoring => rfl

/-- One iteration on the registers is one iteration of the pseudocode with `wrap_32` at each sum (R82, R83, R86, R87). -/
theorem value_iterate (m : Mode) (i : Nat) (t : Triple) :
    (iterate m i t).value = Reference.iteration (Reference.wrap 32) m i t.value := by
  rw [Reference.iteration, ← decision_eq_reference]
  split
  case isTrue h =>
    simp only [iterate_of_decision i h, Triple.value, toInt_add_eq_wrap, toInt_sub_eq_wrap, toInt_sshiftRight_eq_asr,
      toInt_angleEntry]
  case isFalse h =>
    simp only [iterate_of_not_decision i (Bool.eq_false_of_not_eq_true h), Triple.value, toInt_add_eq_wrap,
      toInt_sub_eq_wrap, toInt_sshiftRight_eq_asr, toInt_angleEntry]

/-- The commuting diagram of the whole run, of any length: reading the registers as integers commutes with the stages. -/
theorem value_stage (m : Mode) (t : Triple) (n : Nat) :
    (stage m t n).value = Reference.stage (Reference.wrap 32) m t.value n := by
  induction n with
  | zero => rfl
  | succ n ih => rw [stage_succ, Reference.stage_succ, value_iterate, ih]

/-- Settles O33: the registers of stage n, read as integers, are the pseudocode's stage n. -/
theorem engineStagesFollowThePseudocode : Obligations.EngineStagesFollowThePseudocode := by
  intro m t n _
  have h := value_stage m t n
  exact ⟨congrArg Reference.Triple.x h, congrArg Reference.Triple.y h, congrArg Reference.Triple.z h⟩

/-- `CORDIC` on 32-bit registers is the pseudocode's `CORDIC` (R80). -/
theorem value_cordic (m : Mode) (t : Triple) : (cordic m t).value = Reference.cordic m t.x.toInt t.y.toInt t.z.toInt :=
  value_stage m t iterations

/-- A response that carries a triple carries the patterns of its integers (R54). -/
theorem respondTriple_eq_ofInt_value (op : Opcode) (t : Triple) :
    respondTriple op t = ⟨false, op, .ofInt 32 t.value.z, .ofInt 32 t.value.y, .ofInt 32 t.value.x⟩ := by
  simp only [respondTriple, respond, Triple.value, BitVec.ofInt_toInt]

/-- Settles O34: exec enters ROT's response, and the engine's triple is the pseudocode's. -/
theorem rotAnswersTheRotationTriple : Obligations.RotAnswersTheRotationTriple := by
  refine ⟨fun c b a => decode_toWord _, fun x0 y0 z0 s => ?_⟩
  rw [exec_eq_next_clock, responseOf, rotResponse, respondTriple_eq_ofInt_value, value_cordic]

/-- Settles O35: exec enters VEC's response, and the engine's triple is the pseudocode's. -/
theorem vecAnswersTheVectorTriple : Obligations.VecAnswersTheVectorTriple := by
  refine ⟨fun c b a => decode_toWord _, fun x0 y0 z0 s => ?_⟩
  rw [exec_eq_next_clock, responseOf, vecResponse, respondTriple_eq_ofInt_value, value_cordic]

end Sys2Proof.Machine
end

section
/-! Proofs of the normalizer family: the fold on 32-bit registers as `QN` on integers (R100, R101), and how it is undone (R102). -/

namespace Sys2Proof.Machine

theorem toInt_neg_eq_wrap (v : Word) : (-v).toInt = Reference.wrap 32 (-v.toInt) := by
  rw [BitVec.toInt_neg, Reference.wrap_32_eq_bmod]

/-- Only the negation of -2^31 wraps (R101). -/
theorem toInt_neg_of_ne_min {v : Word} (h : v.toInt ≠ -2 ^ 31) : (-v).toInt = -v.toInt :=
  BitVec.toInt_neg_of_ne_intMin fun hmin => h (congrArg BitVec.toInt hmin)

theorem toInt_eq_zero_iff (v : Word) : v.toInt = 0 ↔ v = 0#32 :=
  BitVec.toInt_inj (y := 0#32)

@[simp] theorem foldBy_zero (x y : Word) : foldBy 0#2 x y = (x, y) := rfl
@[simp] theorem foldBy_one (x y : Word) : foldBy 1#2 x y = (y, -x) := rfl
@[simp] theorem foldBy_two (x y : Word) : foldBy 2#2 x y = (-x, -y) := rfl
@[simp] theorem foldBy_three (x y : Word) : foldBy 3#2 x y = (-y, x) := rfl

/-- The fold by the conditions of R100, in the order in which they are tested. -/
theorem normalize_eq (x y : Word) :
    normalize x y =
      if 0 < x.toInt ∧ 0 ≤ y.toInt then ⟨x, y, 0#2⟩
      else if x.toInt ≤ 0 ∧ 0 < y.toInt then ⟨y, -x, 1#2⟩
      else if x.toInt < 0 ∧ y.toInt ≤ 0 then ⟨-x, -y, 2#2⟩
      else ⟨-y, x, 3#2⟩ := by
  unfold normalize quadrant
  split_ifs <;> rfl

/-- The integers that a folded vector and its quadrant stand for (R102). -/
def Folded.value (f : Folded) : Int × Int × Nat :=
  (f.x.toInt, f.y.toInt, f.q.toNat)

/-- Reading the fold as integers is the spec's `QN` of the integers, with `wrap_32` at each negation. -/
theorem value_normalize (x y : Word) : (normalize x y).value = Reference.QN x.toInt y.toInt := by
  rw [normalize_eq, Reference.QN]
  split_ifs <;> simp only [Folded.value, toInt_neg_eq_wrap] <;> rfl

/-- A response that carries a fold carries the patterns of its integers (R54, R103). -/
theorem respondFolded_eq_ofInt_value (op : Opcode) (f : Folded) :
    respondFolded op f = ⟨false, op, .ofNat 32 f.value.2.2, .ofInt 32 f.value.2.1, .ofInt 32 f.value.1⟩ := by
  simp only [respondFolded, respond, Folded.value, BitVec.ofInt_toInt, BitVec.ofNat_toNat]

/-- Settles O41: exec enters QNORM's response, and the fold is the spec's `QN`. -/
theorem qnormAnswersTheFold : Obligations.QnormAnswersTheFold := by
  refine ⟨fun c b a => decode_toWord _, fun x y s => ?_⟩
  rw [exec_eq_next_clock, responseOf, qnormResponse, respondFolded_eq_ofInt_value, value_normalize]

/-- The signs that R100 tests in each quadrant are those that its fold needs (R102). -/
theorem normalize_signs {x y : Word} (horigin : ¬(x = 0#32 ∧ y = 0#32)) (hx : x.toInt ≠ -2 ^ 31) (hy : y.toInt ≠ -2 ^ 31) :
    0 < (normalize x y).x.toInt ∧ 0 ≤ (normalize x y).y.toInt ∧
      (x ≠ 0#32 → y ≠ 0#32 → 0 < (normalize x y).y.toInt) := by
  have hnegx := toInt_neg_of_ne_min hx
  have hnegy := toInt_neg_of_ne_min hy
  simp only [ne_eq, ← toInt_eq_zero_iff] at horigin ⊢
  rw [normalize_eq]
  split_ifs <;> dsimp only <;> omega

/-- Turning a fold back gives its input, whichever quadrant folded it (R101, R102). -/
theorem foldBy_turnsBack {x y : Word} (q : BitVec 2) (hx : x.toInt ≠ -2 ^ 31) (hy : y.toInt ≠ -2 ^ 31) :
    let f := foldBy q x y
    (q = 0#2 → x.toInt = f.1.toInt ∧ y.toInt = f.2.toInt) ∧
      (q = 1#2 → x.toInt = -f.2.toInt ∧ y.toInt = f.1.toInt) ∧
      (q = 2#2 → x.toInt = -f.1.toInt ∧ y.toInt = -f.2.toInt) ∧
      (q = 3#2 → x.toInt = f.2.toInt ∧ y.toInt = -f.1.toInt) := by
  refine ⟨?zero, ?one, ?two, ?three⟩ <;> rintro rfl
  case zero => simp
  case one => simp [toInt_neg_of_ne_min hx]
  case two => simp [toInt_neg_of_ne_min hx, toInt_neg_of_ne_min hy]
  case three => simp [toInt_neg_of_ne_min hy]

/-- Settles O42: the signs follow from the classification, the turn back from the fold alone. -/
theorem foldedVectorTurnsBackByItsQuadrant : Obligations.FoldedVectorTurnsBackByItsQuadrant := by
  intro x y horigin hx hy
  obtain ⟨hxpos, hynonneg, hypos⟩ := normalize_signs horigin hx hy
  exact ⟨hxpos, hynonneg, hypos, foldBy_turnsBack (quadrant x y) hx hy⟩

end Sys2Proof.Machine
end

section
/-! Proofs of the post-processor family, the engine's reach: how far 24 iterations can carry a vector and its angle in either
mode (R117, R118). -/

namespace Sys2Proof.Reference

open Sys2Proof.Machine (Mode)

/-- A shift right rounds down, and so by at most one unit. -/
theorem abs_asr_sub_div_le_one (v : Int) (k : Nat) : |asr v k - v / (2 : ℝ) ^ k| ≤ 1 := by
  have hfloor : asr v k = ⌊v / (2 : ℝ) ^ k⌋ := by
    have h := Int.floor_div_natCast (v : ℝ) (2 ^ k)
    push_cast [Int.floor_intCast] at h
    exact h.symm
  rw [hfloor, abs_sub_comm, Int.self_sub_floor, Int.abs_fract]
  exact (Int.fract_lt_one _).le

/-- The triple's vector, without its angle. -/
noncomputable def Triple.vector (t : Triple) : ℂ :=
  ⟨t.x, t.y⟩

/-- The factor that iteration i turns and stretches a vector by, were its shifts exact (R82, R83). -/
noncomputable def turn (d : Bool) (i : Nat) : ℂ :=
  ⟨1, if d then -(2 ^ i)⁻¹ else (2 ^ i)⁻¹⟩

theorem norm_turn (d : Bool) (i : Nat) : ‖turn d i‖ = √(1 + 4⁻¹ ^ i) := by
  have hsq : (2 ^ i : ℝ)⁻¹ * (2 ^ i)⁻¹ = (4 ^ i)⁻¹ := by rw [← mul_inv, ← mul_pow]; norm_num
  rw [Complex.norm_def, Complex.normSq_apply, turn]
  cases d <;> simp [hsq]

/-- Each shift rounds by at most one unit, so an iteration misses its turn by at most √2. -/
theorem norm_iteration_sub_turn_le (m : Mode) (i : Nat) (t : Triple) :
    ‖(iteration id m i t).vector - t.vector * turn (decision m t) i‖ ≤ √2 := by
  have hx := abs_asr_sub_div_le_one t.x i
  have hy := abs_asr_sub_div_le_one t.y i
  generalize hd : decision m t = d
  have hdiff : (iteration id m i t).vector - t.vector * turn d i =
      (if d then 1 else -1) * ⟨asr t.y i - t.y / 2 ^ i, -(asr t.x i - t.x / 2 ^ i)⟩ := by
    cases d <;> apply Complex.ext <;> simp [iteration, hd, Triple.vector, turn] <;> ring
  calc ‖(iteration id m i t).vector - t.vector * turn d i‖
      = ‖(⟨asr t.y i - t.y / 2 ^ i, -(asr t.x i - t.x / 2 ^ i)⟩ : ℂ)‖ := by rw [hdiff]; cases d <;> simp
    _ ≤ √2 * max |asr t.y i - t.y / (2 : ℝ) ^ i| |-(asr t.x i - t.x / (2 : ℝ) ^ i)| :=
      Complex.norm_le_sqrt_two_mul_max _
    _ ≤ √2 * 1 := by
      rw [abs_neg]
      gcongr
      exact max_le hy hx
    _ = √2 := mul_one _

/-- One iteration stretches a vector by its turn's norm and moves it by the rounding. -/
theorem norm_iteration_le (m : Mode) (i : Nat) (t : Triple) :
    ‖(iteration id m i t).vector‖ ≤ ‖t.vector‖ * √(1 + 4⁻¹ ^ i) + √2 := by
  have h := (norm_le_norm_add_norm_sub' _ _).trans (add_le_add_right (norm_iteration_sub_turn_le m i t) _)
  rwa [norm_mul, norm_turn] at h

/-- How much the first `n` iterations stretch a vector; the 24 of R80 stretch it by the gain of R24. -/
noncomputable def stretch (n : Nat) : ℝ :=
  ∏ i ∈ Finset.range n, √(1 + 4⁻¹ ^ i)

theorem stretch_succ (n : Nat) : stretch (n + 1) = stretch n * √(1 + 4⁻¹ ^ n) :=
  Finset.prod_range_succ _ n

theorem one_le_stretch (n : Nat) : 1 ≤ stretch n :=
  Finset.one_le_prod fun i => by simp

theorem stretch_mono : Monotone stretch :=
  monotone_nat_of_le_succ fun n => by
    rw [stretch_succ]
    exact le_mul_of_one_le_right (zero_le_one.trans (one_le_stretch n)) (by simp)

/-- R118's norm argument: the roundings so far add at most √2 each before the stretch. -/
theorem norm_stage_le (m : Mode) (t : Triple) (n : Nat) :
    ‖(stage id m t n).vector‖ ≤ stretch n * (‖t.vector‖ + n * √2) := by
  induction n with
  | zero => simp [stretch]
  | succ n ih =>
    calc ‖(stage id m t (n + 1)).vector‖
        ≤ ‖(stage id m t n).vector‖ * √(1 + 4⁻¹ ^ n) + √2 := by rw [stage_succ]; exact norm_iteration_le m n _
      _ ≤ stretch n * (‖t.vector‖ + n * √2) * √(1 + 4⁻¹ ^ n) + 1 * √2 := by rw [one_mul]; gcongr
      _ ≤ stretch n * (‖t.vector‖ + n * √2) * √(1 + 4⁻¹ ^ n) + stretch (n + 1) * √2 := by
        gcongr
        exact one_le_stretch _
      _ = stretch (n + 1) * (‖t.vector‖ + (n + 1 : Nat) * √2) := by rw [stretch_succ]; push_cast; ring

/-- The gain of the engine, from the rounding of its reciprocal to G (R24). -/
theorem stretch_24_lt : stretch 24 < 2 ^ 16 / 39796.5 := by
  obtain ⟨hgain, hround⟩ := Machine.gainConstantIsNearestReciprocalGain
  change |_ - 2 ^ 16 / stretch 24| < _ at hround
  have hpos : 0 < stretch 24 := one_pos.trans_le (one_le_stretch 24)
  have hquot : 39796.5 < 2 ^ 16 / stretch 24 := by
    rw [hgain] at hround
    linarith [(abs_lt.1 hround).2]
  exact (lt_div_comm₀ (by norm_num) hpos).1 hquot

/-- No stage of an engine call leaves a vector longer than all 24 can make it. -/
theorem norm_stage_le_gain (m : Mode) (t : Triple) {n : Nat} (hn : n ≤ 24) :
    ‖(stage id m t n).vector‖ ≤ 2 ^ 16 / 39796.5 * (‖t.vector‖ + 24 * √2) := by
  have hcast : (n : ℝ) ≤ 24 := mod_cast hn
  calc ‖(stage id m t n).vector‖
      ≤ stretch n * (‖t.vector‖ + n * √2) := norm_stage_le m t n
    _ ≤ 2 ^ 16 / 39796.5 * (‖t.vector‖ + 24 * √2) := by
      gcongr
      exact (stretch_mono hn).trans stretch_24_lt.le

theorem abs_x_le_norm_vector (t : Triple) : |(t.x : ℝ)| ≤ ‖t.vector‖ :=
  Complex.abs_re_le_norm t.vector

theorem abs_y_le_norm_vector (t : Triple) : |(t.y : ℝ)| ≤ ‖t.vector‖ :=
  Complex.abs_im_le_norm t.vector

theorem table_getD_nonneg (i : Nat) : 0 ≤ table.getD i 0 := by
  rw [List.getD_eq_getElem?_getD]
  cases h : table[i]? with
  | none => rfl
  | some v =>
    have hnonneg : ∀ v ∈ table, 0 ≤ v := by decide
    exact hnonneg v (List.mem_of_getElem? h)

/-- The angle register moves by one table entry an iteration (R82, R83). -/
theorem abs_stage_z_le (m : Mode) (t : Triple) (n : Nat) :
    |(stage id m t n).z| ≤ |t.z| + ∑ i ∈ Finset.range n, table.getD i 0 := by
  induction n with
  | zero => simp
  | succ n ih =>
    have hentry := table_getD_nonneg n
    rw [stage_succ, iteration, Finset.sum_range_succ]
    rw [abs_le] at ih ⊢
    split <;> simp only [id] <;> omega

/-- No register of the triple is outside the 32-bit range. -/
def Triple.Fits (t : Triple) : Prop :=
  |t.x| < 2 ^ 31 ∧ |t.y| < 2 ^ 31 ∧ |t.z| < 2 ^ 31

theorem wrap_of_abs_lt {v : Int} (h : |v| < 2 ^ 31) : wrap 32 v = v := by
  rw [abs_lt] at h
  unfold wrap
  omega

/-- A wrap is made after the sums, so it acts on what the exact iteration gives. -/
theorem iteration_eq_apply_iteration_id (w : Int → Int) (m : Mode) (i : Nat) (t : Triple) :
    iteration w m i t =
      ⟨w (iteration id m i t).x, w (iteration id m i t).y, w (iteration id m i t).z⟩ := by
  unfold iteration
  split <;> rfl

theorem iteration_wrap_eq_id {m : Mode} {i : Nat} {t : Triple} (h : (iteration id m i t).Fits) :
    iteration (wrap 32) m i t = iteration id m i t := by
  obtain ⟨hx, hy, hz⟩ := h
  rw [iteration_eq_apply_iteration_id, wrap_of_abs_lt hx, wrap_of_abs_lt hy, wrap_of_abs_lt hz]

/-- An engine call whose exact values all fit its registers never wraps. -/
theorem stage_wrap_eq_id {m : Mode} {t : Triple} {n : Nat} (h : ∀ k ≤ n, (stage id m t k).Fits) :
    stage (wrap 32) m t n = stage id m t n := by
  induction n with
  | zero => rfl
  | succ n ih =>
    have hfits := h (n + 1) le_rfl
    rw [stage_succ] at hfits ⊢
    rw [stage_succ, ih fun k hk => h k (by omega), iteration_wrap_eq_id hfits]

/-- In VECTOR mode an iteration adds to x what it shifts y by, in absolute value (R118). -/
theorem stage_x_le_succ (t : Triple) (n : Nat) : (stage id .vectoring t n).x ≤ (stage id .vectoring t (n + 1)).x := by
  rw [stage_succ]
  generalize stage id .vectoring t n = u
  unfold iteration decision
  by_cases hy : u.y ≥ 0
  · have hasr : 0 ≤ asr u.y n := Int.ediv_nonneg hy (by positivity)
    simp [hy, hasr]
  · have hasr : asr u.y n < 0 := Int.ediv_neg_of_neg_of_pos (by omega) (by positivity)
    simp [hy, hasr.le]

theorem x_le_stage_x (t : Triple) (n : Nat) : t.x ≤ (stage id .vectoring t n).x :=
  monotone_nat_of_le_succ (stage_x_le_succ t) (Nat.zero_le n)

end Sys2Proof.Reference
end

section
/-! Proofs of the post-processor family, the composed vector paths: the engine never wraps on 16-bit samples (R117). -/

namespace Sys2Proof.Reference

/-- R118's bound, at every stage: 24 iterations cannot stretch a vector of 16-bit samples to 76370. -/
theorem norm_sampleStage_lt (m : Machine.Mode) {x y : Int} (hx : |x| ≤ 32768) (hy : |y| ≤ 32768) {n : Nat}
    (hn : n ≤ 24) : ‖(stage id m ⟨x, y, 0⟩ n).vector‖ < 76370 := by
  have hmax : max |(x : ℝ)| |(y : ℝ)| ≤ 32768 := max_le (mod_cast hx) (mod_cast hy)
  have hroot : √2 < 1.41422 := (Real.sqrt_lt' (by norm_num)).2 (by norm_num)
  calc ‖(stage id m ⟨x, y, 0⟩ n).vector‖
      ≤ 2 ^ 16 / 39796.5 * (‖(⟨x, y⟩ : ℂ)‖ + 24 * √2) := norm_stage_le_gain m _ hn
    _ ≤ 2 ^ 16 / 39796.5 * (√2 * 32768 + 24 * √2) := by
      gcongr
      exact (Complex.norm_le_sqrt_two_mul_max _).trans (by gcongr)
    _ < 76370 := by linarith

/-- R22's sum bounds every partial sum of the table. -/
theorem sum_table_le : ∀ n ≤ 24, ∑ i ∈ Finset.range n, table.getD i 0 ≤ 9309768 := by
  decide

/-- The registers of a composed path, as exact integers (R117). -/
theorem sampleStage_bounds (m : Machine.Mode) {x y : Int} (hx : |x| ≤ 32768) (hy : |y| ≤ 32768) {n : Nat}
    (hn : n ≤ 24) :
    |(stage id m ⟨x, y, 0⟩ n).x| < 76370 ∧ |(stage id m ⟨x, y, 0⟩ n).y| < 76370 ∧
      |(stage id m ⟨x, y, 0⟩ n).z| ≤ 9309768 := by
  have hnorm := norm_sampleStage_lt m hx hy hn
  refine ⟨?x, ?y, ?z⟩
  case x => exact mod_cast (abs_x_le_norm_vector _).trans_lt hnorm
  case y => exact mod_cast (abs_y_le_norm_vector _).trans_lt hnorm
  case z =>
    have hz := abs_stage_z_le m ⟨x, y, 0⟩ n
    rw [abs_zero, zero_add] at hz
    exact hz.trans (sum_table_le n hn)

end Sys2Proof.Reference

namespace Sys2Proof.Machine

/-- On a composed path the engine's registers hold the pseudocode's values with no wrap at all (R117). -/
theorem value_sampleStage {t : Triple} (hx : |t.x.toInt| ≤ 32768) (hy : |t.y.toInt| ≤ 32768) (hz : t.z = 0#32)
    (m : Mode) {n : Nat} (hn : n ≤ 24) :
    (stage m t n).value = Reference.stage id m ⟨t.x.toInt, t.y.toInt, 0⟩ n := by
  have hvalue : t.value = ⟨t.x.toInt, t.y.toInt, 0⟩ := by simp [Triple.value, hz]
  rw [value_stage, hvalue]
  refine Reference.stage_wrap_eq_id fun k hk => ?_
  obtain ⟨hx', hy', hz'⟩ := Reference.sampleStage_bounds m hx hy (hk.trans hn)
  exact ⟨by omega, by omega, by omega⟩

theorem abs_toInt_sextSample_le (v : Sample) : |(sextSample v).toInt| ≤ 32768 := by
  have hlo := v.le_toInt
  have hhi := v.toInt_lt
  rw [toInt_sextSample, abs_le]
  omega

theorem toInt_absWord {v : Word} (h : v.toInt ≠ -2 ^ 31) : (absWord v).toInt = |v.toInt| := by
  unfold absWord
  split
  case isTrue hneg => rw [toInt_neg_of_ne_min h, abs_of_neg hneg]
  case isFalse hpos => rw [abs_of_nonneg (by omega)]

theorem toInt_sextSample_ne_min (v : Sample) : (sextSample v).toInt ≠ -2 ^ 31 := by
  have h := abs_toInt_sextSample_le v
  rw [abs_le] at h
  omega

/-- The reflection of a sample never wraps: -32768 becomes 32768 (R118). -/
theorem toInt_absWord_sextSample (v : Sample) : (absWord (sextSample v)).toInt = |v.toInt| := by
  rw [toInt_absWord (toInt_sextSample_ne_min v), toInt_sextSample]

/-- The fold of two samples never wraps either (R117). -/
theorem abs_foldedSamples_le (x y : Sample) :
    |(foldedSamples x y).x.toInt| ≤ 32768 ∧ |(foldedSamples x y).y.toInt| ≤ 32768 := by
  have hnegx := toInt_neg_of_ne_min (toInt_sextSample_ne_min x)
  have hnegy := toInt_neg_of_ne_min (toInt_sextSample_ne_min y)
  have hx := abs_toInt_sextSample_le x
  have hy := abs_toInt_sextSample_le y
  rw [foldedSamples, normalize_eq]
  split_ifs <;> simp [hnegx, hnegy, hx, hy]

theorem toInt_magStart_x (x y : Sample) : (magStart x y).x.toInt = |x.toInt| :=
  toInt_absWord_sextSample x

theorem toInt_magStart_y (x y : Sample) : (magStart x y).y.toInt = |y.toInt| :=
  toInt_absWord_sextSample y

theorem abs_magStart_le (x y : Sample) : |(magStart x y).x.toInt| ≤ 32768 ∧ |(magStart x y).y.toInt| ≤ 32768 := by
  have hx := abs_toInt_sextSample_le x
  have hy := abs_toInt_sextSample_le y
  rw [toInt_sextSample] at hx hy
  rw [toInt_magStart_x, toInt_magStart_y, abs_abs, abs_abs]
  exact ⟨hx, hy⟩

/-- Settles O36: the norm of a vector bounds its components, the table's sum its angle, and both fit 32 bits. -/
theorem composedVectorPathsNeverWrap : Obligations.ComposedVectorPathsNeverWrap := by
  refine ⟨fun x y => ?inputs, fun x y n hx hy hn => ?stages⟩
  case inputs =>
    obtain ⟨hfx, hfy⟩ := abs_foldedSamples_le x y
    exact ⟨hfx, hfy, abs_magStart_le x y⟩
  case stages =>
    have hvalue := value_sampleStage (t := ⟨x, y, 0#32⟩) hx hy rfl .vectoring hn
    obtain ⟨hux, huy, huz⟩ := Reference.sampleStage_bounds .vectoring hx hy hn
    exact ⟨congrArg Reference.Triple.x hvalue, congrArg Reference.Triple.y hvalue, congrArg Reference.Triple.z hvalue,
      by omega, by omega, huz⟩

end Sys2Proof.Machine
end

section
/-! Proofs of the post-processor family, MAG and MAGW: the gain product of the reflected samples (R118 to R120). -/

namespace Sys2Proof.Machine

/-- The engine call of R118, on the pseudocode's values. -/
theorem value_cordic_magStart (x y : Sample) :
    (cordic .vectoring (magStart x y)).value = Reference.cordic .vectoring |x.toInt| |y.toInt| 0 := by
  rw [value_cordic]
  rw [toInt_magStart_x, toInt_magStart_y]
  rfl

/-- Along that call x is the pseudocode's x without wraps. -/
theorem toInt_magStage_x (x y : Sample) {n : Nat} (hn : n ≤ 24) :
    (stage .vectoring (magStart x y) n).x.toInt = (Reference.stage id .vectoring ⟨|x.toInt|, |y.toInt|, 0⟩ n).x := by
  obtain ⟨hx, hy⟩ := abs_magStart_le x y
  have hvalue := value_sampleStage hx hy rfl .vectoring hn
  rw [toInt_magStart_x, toInt_magStart_y] at hvalue
  exact congrArg Reference.Triple.x hvalue

/-- Settles O45: x never decreases, starts at an absolute value, and is bounded by its vector's norm. -/
theorem magnitudeGrowsAndStaysBounded : Obligations.MagnitudeGrowsAndStaysBounded := by
  intro x y
  obtain ⟨hx, hy⟩ := abs_magStart_le x y
  rw [toInt_magStart_x] at hx
  rw [toInt_magStart_y] at hy
  rw [cordic_eq_stage, toInt_magStage_x x y le_rfl]
  refine ⟨fun n hn => ?grows, ?nonneg, ?bounded⟩
  case grows =>
    rw [toInt_magStage_x x y (by omega), toInt_magStage_x x y (by omega)]
    exact Reference.stage_x_le_succ _ n
  case nonneg => exact (abs_nonneg x.toInt).trans (Reference.x_le_stage_x ⟨|x.toInt|, |y.toInt|, 0⟩ 24)
  case bounded => exact (abs_lt.1 (Reference.sampleStage_bounds .vectoring hx hy le_rfl).1).2

/-- 64 bits hold the product of any register with G (R118). -/
theorem toInt_gainProduct (v : Word) : (gainProduct v).toInt = v.toInt * Reference.G := by
  have hlo := v.le_toInt
  have hhi := v.toInt_lt
  have hgain : (BitVec.ofNat 64 gain).toInt = Reference.G := by decide
  rw [gainProduct, BitVec.toInt_mul, toInt_sextWide, hgain, Reference.G]
  exact Int.bmod_eq_of_le (by omega) (by omega)

theorem toInt_magWide (x y : Sample) : (magWide x y).toInt = Reference.magProduct x.toInt y.toInt := by
  rw [magWide, toInt_gainProduct, Reference.magProduct, ← value_cordic_magStart, Triple.value]

theorem magProduct_bounds (x y : Sample) :
    0 ≤ Reference.magProduct x.toInt y.toInt ∧ Reference.magProduct x.toInt y.toInt < 76370 * Reference.G := by
  obtain ⟨-, h0, hlt⟩ := magnitudeGrowsAndStaysBounded x y
  rw [← toInt_magWide, magWide, toInt_gainProduct, Reference.G]
  omega

/-- R119's derived bound. -/
theorem round_magProduct_bounds (x y : Sample) :
    0 ≤ Reference.round (Reference.magProduct x.toInt y.toInt) 16 ∧
      Reference.round (Reference.magProduct x.toInt y.toInt) 16 < 2 ^ 16 := by
  obtain ⟨h0, hlt⟩ := magProduct_bounds x y
  rw [Reference.G] at hlt
  rw [round_succ_eq_half]
  omega

theorem respondNarrow_eq_ofInt_round (op : Opcode) (p : Wide) :
    respondNarrow op p = ⟨false, op, 0#32, 0#32, .ofInt 32 (Reference.round p.toInt 16)⟩ := by
  rw [respondNarrow, respond, lowWord_eq_ofInt, toInt_roundShift p (by decide) (by decide)]

theorem respondWide_eq_ofInt (op : Opcode) (p : Wide) :
    respondWide op p = ⟨false, op, 0#32, .ofInt 32 (p.toInt / 2 ^ 32), .ofInt 32 p.toInt⟩ := by
  rw [respondWide, respond, lowWord_eq_ofInt, highWord_eq_ofInt]

/-- Settles O43: exec enters MAG's response, whose product is the pseudocode's. -/
theorem magAnswersTheRoundedProduct : Obligations.MagAnswersTheRoundedProduct := by
  refine ⟨fun c b a => decode_toWord _, fun x y s => ⟨?_, round_magProduct_bounds x y⟩⟩
  rw [exec_eq_next_clock, responseOf, magResponse, respondNarrow_eq_ofInt_round, toInt_magWide]

/-- Settles O44: exec enters MAGW's response, and the bound on the product leaves nothing of it in r1. -/
theorem magwAnswersTheProduct : Obligations.MagwAnswersTheProduct := by
  refine ⟨fun c b a => decode_toWord _, fun x y s => ?_⟩
  obtain ⟨h0, hlt⟩ := magProduct_bounds x y
  replace hlt : Reference.magProduct x.toInt y.toInt < 2 ^ 32 := hlt.trans (by decide)
  refine ⟨?_, h0, hlt⟩
  rw [exec_eq_next_clock, responseOf, magwResponse, respondWide_eq_ofInt, toInt_magWide, Int.ediv_eq_zero_of_lt h0 hlt]
  rfl

/-- A sample and its negation reflect to one register; -32768 is its own negation in 16 bits (R118). -/
theorem absWord_sextSample_neg (v : Sample) : absWord (sextSample (-v)) = absWord (sextSample v) := by
  by_cases h : v = .intMin 16
  case pos => rw [h, BitVec.neg_intMin]
  case neg =>
    apply BitVec.eq_of_toInt_eq
    rw [toInt_absWord_sextSample, toInt_absWord_sextSample, BitVec.toInt_neg_of_ne_intMin h, abs_neg]

theorem magWide_neg_left (x y : Sample) : magWide (-x) y = magWide x y := by
  rw [magWide, magWide, magStart, magStart, absWord_sextSample_neg]

theorem magWide_neg_right (x y : Sample) : magWide x (-y) = magWide x y := by
  rw [magWide, magWide, magStart, magStart, absWord_sextSample_neg]

/-- Settles O46: both responses are functions of the product alone, which reflects its samples first. -/
theorem magnitudeUnchangedBySigns : Obligations.MagnitudeUnchangedBySigns := by
  intro x y s
  simp only [exec_eq_next_clock, responseOf, magResponse, magwResponse, magWide_neg_left, magWide_neg_right, and_self]

/-- Settles O47: {r1, r0} of MAGW is the product, RND rounds it as MAG does, and the rounded value leaves r1 empty. -/
theorem rndOfMagwRebuildsMag : Obligations.RndOfMagwRebuildsMag := by
  intro x y
  obtain ⟨h0, hlt⟩ := round_magProduct_bounds x y
  have hproduct : (magwResponse x y).r1 ++ (magwResponse x y).r0 = magWide x y := halves_append _
  rw [hproduct, rndResponse_of_legal _ (by decide) (by decide), magResponse, respondNarrow_eq_ofInt_round, toInt_magWide]
  exact ⟨rfl, congrArg (BitVec.ofInt 32) (Int.ediv_eq_zero_of_lt h0 (hlt.trans (by decide)))⟩

end Sys2Proof.Machine
end

section
/-! Proofs of the post-processor family, PHASE16 and PHASE24: axis results and composed angles (R111 to R115). -/

namespace Sys2Proof.Reference

theorem phase16_of_off_axis {x y : Int} (hx : x ≠ 0) (hy : y ≠ 0) : phase16 x y = phase16Path x y := by
  simp [phase16, hx, hy]

theorem phase24_of_off_axis {x y : Int} (hx : x ≠ 0) (hy : y ≠ 0) : phase24 x y = phase24Path x y := by
  simp [phase24, hx, hy]

theorem phase16Path_eq_or (x y : Int) :
    phase16Path x y =
      (QN x y).2.2 <<< 14 ||| (round (cordic .vectoring (QN x y).1 (QN x y).2.1 0).z 9 % 2 ^ 14).toNat := rfl

/-- The OR of R112 adds, for its operands share no bit. -/
theorem phase16Path_eq_add (x y : Int) :
    phase16Path x y =
      (QN x y).2.2 * 2 ^ 14 + (round (cordic .vectoring (QN x y).1 (QN x y).2.1 0).z 9 % 2 ^ 14).toNat := by
  have hlow (w : Int) : (w % 2 ^ 14).toNat < 2 ^ 14 := by omega
  rw [phase16Path_eq_or, ← Nat.shiftLeft_add_eq_or_of_lt (hlow _), Nat.shiftLeft_eq]

/-- R114: each axis result is the start of its quadrant, and off the axes the low bits stay in theirs. -/
theorem phase16_in_quadrant {x y : Int} (h : ¬(x = 0 ∧ y = 0)) :
    (QN x y).2.2 * 16384 ≤ phase16 x y ∧ phase16 x y ≤ (QN x y).2.2 * 16384 + 16383 := by
  by_cases haxis : x = 0 ∨ y = 0
  case pos =>
    unfold phase16 QN
    split_ifs <;> dsimp only <;> omega
  case neg =>
    obtain ⟨hx, hy⟩ := not_or.1 haxis
    rw [phase16_of_off_axis hx hy, phase16Path_eq_add]
    omega

end Sys2Proof.Reference

namespace Sys2Proof.Machine

theorem sample_toInt_eq_zero_iff (v : Sample) : v.toInt = 0 ↔ v = 0#16 :=
  BitVec.toInt_inj (y := 0#16)

/-- The axis tests, on the samples' values (R111). -/
theorem axisPhase_eq (deg0 deg90 deg180 deg270 : Word) (x y : Sample) :
    axisPhase deg0 deg90 deg180 deg270 x y =
      if x.toInt = 0 ∧ y.toInt = 0 then some 0#32
      else if x.toInt = 0 then some (if 0 < y.toInt then deg90 else deg270)
      else if y.toInt = 0 then some (if 0 < x.toInt then deg0 else deg180)
      else none := by
  simp only [sample_toInt_eq_zero_iff]
  rfl

theorem value_foldedSamples (x y : Sample) : (foldedSamples x y).value = Reference.QN x.toInt y.toInt := by
  rw [foldedSamples, value_normalize, toInt_sextSample, toInt_sextSample]

theorem toInt_vectorAngle (f : Folded) :
    (vectorAngle f).toInt = (Reference.cordic .vectoring f.value.1 f.value.2.1 0).z := by
  have hvalue := congrArg Reference.Triple.z (value_cordic .vectoring ⟨f.x, f.y, 0#32⟩)
  simpa only [Triple.value, vectorAngle, Folded.value, BitVec.toInt_zero] using hvalue

/-- The masks of R112 and R115 keep a value's low bits. -/
theorem toNat_and_mask (v mask : Wide) {k : Nat} (hmask : mask.toNat = 2 ^ k - 1) :
    (v &&& mask).toNat = v.toNat % 2 ^ k := by
  rw [BitVec.toNat_and, hmask, Nat.and_two_pow_sub_one_eq_mod]

theorem toNat_lowWord_and_mask (v mask : Wide) {k : Nat} (hmask : mask.toNat = 2 ^ k - 1) (hk : k ≤ 32) :
    (lowWord (v &&& mask)).toNat = v.toNat % 2 ^ k := by
  have hlt : v.toNat % 2 ^ k < 2 ^ 32 :=
    (Nat.mod_lt _ (Nat.two_pow_pos k)).trans_le (Nat.pow_le_pow_right two_pos hk)
  rw [lowWord, BitVec.extractLsb'_toNat, Nat.shiftRight_zero, toNat_and_mask v mask hmask, Nat.mod_eq_of_lt hlt]

/-- The quadrant field above `k` bits loses nothing on 64 (R112, R115). -/
theorem toNat_quadrant_shiftLeft (q : BitVec 2) {k : Nat} (hk : k ≤ 62) :
    (q.setWidth 64 <<< k).toNat = q.toNat <<< k := by
  have hlt : q.toNat <<< k < 2 ^ 64 :=
    calc q.toNat <<< k = q.toNat * 2 ^ k := Nat.shiftLeft_eq ..
      _ ≤ 3 * 2 ^ 62 := Nat.mul_le_mul (Nat.le_of_lt_succ q.isLt) (Nat.pow_le_pow_right two_pos hk)
      _ < 2 ^ 64 := by decide
  rw [BitVec.toNat_shiftLeft, BitVec.toNat_setWidth_of_le (by decide), Nat.mod_eq_of_lt hlt]

/-- The low bits of the rounded angle, in the rounding unit and on integers. -/
theorem toNat_roundShift_mod (z24 : Word) {bits k : Nat} (h1 : 1 ≤ bits) (h63 : bits ≤ 63) (hk : k ≤ 64) :
    (roundShift (sextWide z24) bits).toNat % 2 ^ k = (Reference.round z24.toInt bits % 2 ^ k).toNat := by
  rw [← toInt_sextWide, ← toInt_roundShift _ h1 h63, toInt_emod_two_pow _ hk]
  norm_cast

theorem toNat_composePhase16 (q : BitVec 2) (z24 : Word) :
    (composePhase16 q z24).toNat = q.toNat <<< 14 ||| (Reference.round z24.toInt 9 % 2 ^ 14).toNat := by
  have hlow : (Reference.round z24.toInt 9 % 2 ^ 14).toNat < 2 ^ 14 := by omega
  have hq : q.toNat <<< 14 < 2 ^ 16 := by omega
  rw [composePhase16, toNat_lowWord_and_mask _ 0xFFFF#64 (k := 16) rfl (by decide), BitVec.toNat_or,
    toNat_quadrant_shiftLeft q (by decide), toNat_and_mask _ 0x3FFF#64 (k := 14) rfl,
    toNat_roundShift_mod z24 (by decide) (by decide) (by decide)]
  exact Nat.mod_eq_of_lt (Nat.or_lt_two_pow hq (hlow.trans (by decide)))

theorem toNat_composePhase24 (q : BitVec 2) (z24 : Word) :
    (composePhase24 q z24).toNat = (((q.toNat : Int) * 2 ^ 22 + Reference.round z24.toInt 1) % 2 ^ 24).toNat := by
  have hw := toNat_roundShift_mod z24 (bits := 1) (k := 24) (by decide) (by decide) (by decide)
  rw [composePhase24, toNat_lowWord_and_mask _ 0xFFFFFF#64 (k := 24) rfl (by decide), BitVec.toNat_add,
    toNat_quadrant_shiftLeft q (by decide), Nat.shiftLeft_eq]
  omega

/-- The engine path of PHASE16 is the pseudocode's (R112). -/
theorem toNat_phase16Path (x y : Sample) :
    (composePhase16 (foldedSamples x y).q (vectorAngle (foldedSamples x y))).toNat =
      Reference.phase16Path x.toInt y.toInt := by
  rw [toNat_composePhase16, toInt_vectorAngle, Reference.phase16Path, ← value_foldedSamples]
  rfl

/-- The engine path of PHASE24 is the pseudocode's (R115). -/
theorem toNat_phase24Path (x y : Sample) :
    (composePhase24 (foldedSamples x y).q (vectorAngle (foldedSamples x y))).toNat =
      Reference.phase24Path x.toInt y.toInt := by
  rw [toNat_composePhase24, toInt_vectorAngle, Reference.phase24Path, ← value_foldedSamples]
  rfl

theorem toNat_phase16Value (x y : Sample) : (phase16Value x y).toNat = Reference.phase16 x.toInt y.toInt := by
  rw [phase16Value, axisPhase16, axisPhase_eq, Reference.phase16]
  split_ifs
  exacts [rfl, rfl, rfl, rfl, rfl, toNat_phase16Path x y]

theorem toNat_phase24Value (x y : Sample) : (phase24Value x y).toNat = Reference.phase24 x.toInt y.toInt := by
  rw [phase24Value, axisPhase24, axisPhase_eq, Reference.phase24]
  split_ifs
  exacts [rfl, rfl, rfl, rfl, rfl, toNat_phase24Path x y]

theorem phase16Response_eq_ofNat (x y : Sample) :
    phase16Response x y = ⟨false, 0x6#4, 0#32, 0#32, .ofNat 32 (Reference.phase16 x.toInt y.toInt)⟩ := by
  rw [phase16Response, respond, ← toNat_phase16Value, BitVec.ofNat_toNat, BitVec.setWidth_eq]

theorem phase24Response_eq_ofNat (x y : Sample) :
    phase24Response x y = ⟨false, 0x7#4, 0#32, 0#32, .ofNat 32 (Reference.phase24 x.toInt y.toInt)⟩ := by
  rw [phase24Response, respond, ← toNat_phase24Value, BitVec.ofNat_toNat, BitVec.setWidth_eq]

/-- Settles O48: exec enters PHASE16's response, whose phase is the pseudocode's and, by R54, below 2^16. -/
theorem phase16AnswersTheComposedAngle : Obligations.Phase16AnswersTheComposedAngle := by
  refine ⟨fun c b a => decode_toWord _, fun x y s => ⟨?answer, ?bound⟩⟩
  case answer => rw [exec_eq_next_clock, responseOf, phase16Response_eq_ofNat]
  case bound => exact toNat_phase16Value x y ▸ phase16Value_lt x y

/-- Settles O49: exec enters PHASE24's response, whose phase is the pseudocode's and, by R54, below 2^24. -/
theorem phase24AnswersTheComposedAngle : Obligations.Phase24AnswersTheComposedAngle := by
  refine ⟨fun c b a => decode_toWord _, fun x y s => ⟨?answer, ?bound⟩⟩
  case answer => rw [exec_eq_next_clock, responseOf, phase24Response_eq_ofNat]
  case bound => exact toNat_phase24Value x y ▸ phase24Value_lt x y

/-- Settles O50: both phases are the pseudocode's, whose tests the six cases go through. -/
theorem axisInputsGiveExactPhases : Obligations.AxisInputsGiveExactPhases := by
  intro x y
  simp only [phase16Response_eq_ofNat, phase24Response_eq_ofNat]
  refine ⟨fun hx hy => ?origin, fun hx hy => ?up, fun hx hy => ?down, fun hy hx => ?right, fun hy hx => ?left,
    fun hx hy => ?engine⟩
  case origin => simp [Reference.phase16, Reference.phase24, hx, hy]
  case up => simp [Reference.phase16, Reference.phase24, hx, hy, hy.ne']
  case down => simp [Reference.phase16, Reference.phase24, hx, hy.ne, hy.not_gt]
  case right => simp [Reference.phase16, Reference.phase24, hx, hx.ne', hy]
  case left => simp [Reference.phase16, Reference.phase24, hx.ne, hx.not_gt, hy]
  case engine =>
    rw [Reference.phase16_of_off_axis hx hy, Reference.phase24_of_off_axis hx hy]
    exact ⟨rfl, rfl⟩

/-- Settles O51: the normalizer's quadrant and the engine's angle are the pseudocode's, whose phase lies in that quadrant. -/
theorem phase16StaysInItsQuadrant : Obligations.Phase16StaysInItsQuadrant := by
  intro x y horigin
  have hp : (phase16Response x y).r0.toNat = Reference.phase16 x.toInt y.toInt := toNat_phase16Value x y
  have hq : (foldedSamples x y).q.toNat = (Reference.QN x.toInt y.toInt).2.2 :=
    congrArg (fun f => f.2.2) (value_foldedSamples x y)
  simp only [ne_eq, ← sample_toInt_eq_zero_iff, hp, hq] at horigin ⊢
  obtain ⟨hlo, hhi⟩ := Reference.phase16_in_quadrant horigin
  refine ⟨hlo, hhi, fun hx hy => ?_⟩
  rw [Reference.phase16_of_off_axis hx hy, Reference.phase16Path_eq_add, toInt_vectorAngle, value_foldedSamples]
  omega

end Sys2Proof.Machine
end

section
/-! Proofs of the sine/cosine family, the engine call: no register wraps on it (R143). -/

namespace Sys2Proof.Reference

/-- A vector of length G is stretched to about 2^16, far from R143's 2^18. -/
theorem norm_gainStage_lt (m : Machine.Mode) (z0 : Int) {n : Nat} (hn : n ≤ 24) :
    ‖(stage id m ⟨39797, 0, z0⟩ n).vector‖ < 2 ^ 18 := by
  have hnorm : ‖(⟨39797, 0, z0⟩ : Triple).vector‖ ≤ 39797 := by
    simpa [Triple.vector] using Complex.norm_le_abs_re_add_abs_im ⟨39797, 0⟩
  have hroot : √2 < 2 := (Real.sqrt_lt' two_pos).2 (by norm_num)
  calc ‖(stage id m ⟨39797, 0, z0⟩ n).vector‖
      ≤ 2 ^ 16 / 39796.5 * (‖(⟨39797, 0, z0⟩ : Triple).vector‖ + 24 * √2) := norm_stage_le_gain m _ hn
    _ ≤ 2 ^ 16 / 39796.5 * (39797 + 24 * 2) := by gcongr
    _ < 2 ^ 18 := by norm_num

/-- The registers of SINCOS24's engine call, as exact integers (R143). -/
theorem gainStage_bounds (m : Machine.Mode) {z0 : Int} (h0 : 0 ≤ z0) (hz : z0 ≤ 0x7FFFFE) {n : Nat} (hn : n ≤ 24) :
    |(stage id m ⟨39797, 0, z0⟩ n).x| < 2 ^ 18 ∧ |(stage id m ⟨39797, 0, z0⟩ n).y| < 2 ^ 18 ∧
      |(stage id m ⟨39797, 0, z0⟩ n).z| < 2 ^ 31 := by
  have hnorm := norm_gainStage_lt m z0 hn
  refine ⟨?x, ?y, ?z⟩
  case x => exact mod_cast (abs_x_le_norm_vector _).trans_lt hnorm
  case y => exact mod_cast (abs_y_le_norm_vector _).trans_lt hnorm
  case z =>
    have hmoved := abs_stage_z_le m ⟨39797, 0, z0⟩ n
    have hsum := sum_table_le n hn
    rw [abs_of_nonneg h0] at hmoved
    omega

end Sys2Proof.Reference

namespace Sys2Proof.Machine

theorem getLsbD_eq_decide_bit (theta : Angle) (k : Nat) : theta.getLsbD k = decide (theta.toNat / 2 ^ k % 2 = 1) :=
  Nat.testBit_eq_decide_div_mod_eq

/-- The fold on naturals: the mirror of 22 bits never borrows (R141). -/
theorem toNat_sinCosFold (theta : Angle) :
    (sinCosFold theta).toNat =
      if theta.toNat / 2 ^ 22 % 2 = 1 then 0x3FFFFF - theta.toNat % 2 ^ 22 else theta.toNat % 2 ^ 22 := by
  have hlo : (theta.extractLsb' 0 22).toNat = theta.toNat % 2 ^ 22 := BitVec.extractLsb'_toNat ..
  have hle : theta.extractLsb' 0 22 ≤ 0x3FFFFF#22 := BitVec.le_def.2 (Nat.le_of_lt_succ (theta.extractLsb' 0 22).isLt)
  rw [sinCosFold, getLsbD_eq_decide_bit]
  simp only [decide_eq_true_eq]
  split
  case isTrue => exact (BitVec.toNat_sub_of_le hle).trans (congrArg (0x3FFFFF - ·) hlo)
  case isFalse => exact hlo

/-- Doubling a 22-bit fold stays clear of the register's sign (R143). -/
theorem toInt_sinCosStart_z (theta : Angle) : (sinCosStart theta).z.toInt = (sinCosFold theta).toNat * 2 := by
  have hf := (sinCosFold theta).isLt
  have hz : (sinCosStart theta).z.toNat = (sinCosFold theta).toNat * 2 := by
    simp only [sinCosStart, BitVec.toNat_shiftLeft, BitVec.toNat_setWidth, Nat.shiftLeft_eq]
    omega
  rw [BitVec.toInt_eq_toNat_of_lt (by omega), hz]
  exact Nat.cast_mul _ 2

theorem sinCosStart_z_bounds (theta : Angle) :
    0 ≤ (sinCosStart theta).z.toInt ∧ (sinCosStart theta).z.toInt ≤ 0x7FFFFE := by
  have hf := (sinCosFold theta).isLt
  rw [toInt_sinCosStart_z]
  omega

theorem value_sinCosStart (theta : Angle) :
    (sinCosStart theta).value = ⟨39797, 0, (sinCosStart theta).z.toInt⟩ := by
  have hgain : (BitVec.ofNat 32 gain).toInt = 39797 := by decide
  simp only [Triple.value, sinCosStart, hgain, BitVec.toInt_zero]

/-- On SINCOS24's engine call the registers hold the pseudocode's values with no wrap at all (R143). -/
theorem value_sinCosStage (theta : Angle) {n : Nat} (hn : n ≤ 24) :
    (stage .rotation (sinCosStart theta) n).value =
      Reference.stage id .rotation ⟨39797, 0, (sinCosStart theta).z.toInt⟩ n := by
  obtain ⟨h0, hz⟩ := sinCosStart_z_bounds theta
  rw [value_stage, value_sinCosStart]
  refine Reference.stage_wrap_eq_id fun k hk => ?_
  obtain ⟨hx, hy, hz'⟩ := Reference.gainStage_bounds .rotation h0 hz (hk.trans hn)
  exact ⟨by omega, by omega, hz'⟩

theorem abs_sinCosStage_lt (theta : Angle) {n : Nat} (hn : n ≤ 24) :
    |(stage .rotation (sinCosStart theta) n).x.toInt| < 2 ^ 18 ∧
      |(stage .rotation (sinCosStart theta) n).y.toInt| < 2 ^ 18 := by
  obtain ⟨h0, hz⟩ := sinCosStart_z_bounds theta
  obtain ⟨hx, hy, -⟩ := Reference.gainStage_bounds .rotation h0 hz hn
  rw [← value_sinCosStage theta hn] at hx hy
  exact ⟨hx, hy⟩

/-- Settles O37: the start's angle is a doubled 22-bit fold, and a vector of length G stays below 2^18. -/
theorem sinCosPathNeverWraps : Obligations.SinCosPathNeverWraps := by
  intro theta n hn
  obtain ⟨h0, hz⟩ := sinCosStart_z_bounds theta
  have hvalue := value_sinCosStage theta hn
  obtain ⟨hux, huy, -⟩ := Reference.gainStage_bounds .rotation h0 hz hn
  exact ⟨h0, hz, congrArg Reference.Triple.x hvalue, congrArg Reference.Triple.y hvalue,
    congrArg Reference.Triple.z hvalue, hux, huy⟩

end Sys2Proof.Machine
end

section
/-! Proofs of the sine/cosine family, SINCOS24: its answer, its symmetries and its angle modulo a full turn (R140 to R144). -/

namespace Sys2Proof.Machine

theorem negSin_eq_decide (theta : Angle) : negSin theta = decide (theta.toNat / 2 ^ 23 % 2 = 1) :=
  getLsbD_eq_decide_bit theta 23

theorem negCos_eq_xor (theta : Angle) : negCos theta = (negSin theta ^^ theta.getLsbD 22) := rfl

/-- The truth table's XOR is the pseudocode's, on the bits as naturals (R142). -/
theorem negCos_eq_decide (theta : Angle) :
    negCos theta = decide (theta.toNat / 2 ^ 23 % 2 ^^^ theta.toNat / 2 ^ 22 % 2 = 1) := by
  have hxor : ∀ p < 2, ∀ q < 2, (decide (p = 1) ^^ decide (q = 1)) = decide (p ^^^ q = 1) := by decide
  rw [negCos_eq_xor, negSin_eq_decide, getLsbD_eq_decide_bit]
  exact hxor _ (Nat.mod_lt _ two_pos) _ (Nat.mod_lt _ two_pos)

/-- SINCOS24's pseudocode on the engine's registers: the truth table's bits choose the signs (R142, R144). -/
theorem sinCos_toNat (theta : Angle) :
    Reference.sinCos theta.toNat =
      (if negCos theta then -(cordic .rotation (sinCosStart theta)).x.toInt
        else (cordic .rotation (sinCosStart theta)).x.toInt,
       if negSin theta then -(cordic .rotation (sinCosStart theta)).y.toInt
        else (cordic .rotation (sinCosStart theta)).y.toInt) := by
  have hvalue : (cordic .rotation (sinCosStart theta)).value =
      Reference.cordic .rotation Reference.G 0 ((sinCosFold theta).toNat * 2) := by
    rw [value_cordic, toInt_sinCosStart_z]
    rfl
  rw [toNat_sinCosFold] at hvalue
  simp only [Reference.sinCos, ← hvalue, negCos_eq_decide, negSin_eq_decide, decide_eq_true_eq, Triple.value]

theorem negateIf_eq_ofInt (neg : Bool) (v : Word) :
    negateIf neg v = .ofInt 32 (if neg then -v.toInt else v.toInt) := by
  cases neg <;> simp [negateIf, BitVec.ofInt_neg]

theorem sincos24Response_eq_ofInt (theta : Angle) :
    sincos24Response theta =
      ⟨false, 0x8#4, 0#32, .ofInt 32 (Reference.sinCos theta.toNat).2, .ofInt 32 (Reference.sinCos theta.toNat).1⟩ := by
  rw [sincos24Response, respondSinCos, respond, negateIf_eq_ofInt, negateIf_eq_ofInt, sinCos_toNat]

theorem abs_ite_neg (neg : Bool) (v : Int) : |if neg then -v else v| = |v| := by
  cases neg <;> simp

/-- R143's derived bound on the results, whose signs do not matter to it. -/
theorem abs_sinCos_lt (theta : Angle) :
    |(Reference.sinCos theta.toNat).1| < 2 ^ 18 ∧ |(Reference.sinCos theta.toNat).2| < 2 ^ 18 := by
  rw [sinCos_toNat, cordic_eq_stage]
  simp only [abs_ite_neg]
  exact abs_sinCosStage_lt theta le_rfl

/-- Settles O52: exec enters SINCOS24's response, whose results are the pseudocode's. -/
theorem sincos24AnswersCosAndSin : Obligations.Sincos24AnswersCosAndSin := by
  refine ⟨fun c b a => decode_toWord _, fun theta s => ⟨?answer, abs_sinCos_lt theta⟩⟩
  case answer => rw [exec_eq_next_clock, responseOf, sincos24Response_eq_ofInt]

/-- Half a turn on, the low 22 bits and bit 22 are the same (R141). -/
theorem sinCosFold_add_halfTurn (theta : Angle) : sinCosFold (theta + 0x800000#24) = sinCosFold theta := by
  apply BitVec.eq_of_toNat_eq
  rw [toNat_sinCosFold, toNat_sinCosFold, BitVec.toNat_add, BitVec.toNat_ofNat]
  split_ifs <;> omega

/-- The mirrored angle has every bit inverted, so its fold is mirrored back (R141). -/
theorem sinCosFold_mirror (theta : Angle) : sinCosFold (0xFFFFFF#24 - theta) = sinCosFold theta := by
  apply BitVec.eq_of_toNat_eq
  rw [toNat_sinCosFold, toNat_sinCosFold, BitVec.toNat_sub, BitVec.toNat_ofNat]
  split_ifs <;> omega

theorem negSin_add_halfTurn (theta : Angle) : negSin (theta + 0x800000#24) = !negSin theta := by
  rw [negSin_eq_decide, negSin_eq_decide, BitVec.toNat_add, BitVec.toNat_ofNat, ← decide_not]
  exact decide_eq_decide.2 (by omega)

theorem getLsbD_22_add_halfTurn (theta : Angle) : (theta + 0x800000#24).getLsbD 22 = theta.getLsbD 22 := by
  rw [getLsbD_eq_decide_bit, getLsbD_eq_decide_bit, BitVec.toNat_add, BitVec.toNat_ofNat]
  exact decide_eq_decide.2 (by omega)

theorem negCos_add_halfTurn (theta : Angle) : negCos (theta + 0x800000#24) = !negCos theta := by
  rw [negCos_eq_xor, negCos_eq_xor, negSin_add_halfTurn, getLsbD_22_add_halfTurn, Bool.not_xor]

theorem getLsbD_mirror (theta : Angle) {k : Nat} (hk : k < 24) :
    (0xFFFFFF#24 - theta).getLsbD k = !theta.getLsbD k := by
  have hnot : 0xFFFFFF#24 - theta = ~~~theta := BitVec.allOnes_sub_eq_not theta
  simp [hnot, hk]

theorem negSin_mirror (theta : Angle) : negSin (0xFFFFFF#24 - theta) = !negSin theta :=
  getLsbD_mirror theta (by decide)

theorem negCos_mirror (theta : Angle) : negCos (0xFFFFFF#24 - theta) = negCos theta := by
  rw [negCos_eq_xor, negCos_eq_xor, negSin_mirror, getLsbD_mirror theta (by decide), Bool.not_xor_not]

theorem negateIf_not (neg : Bool) (v : Word) : negateIf (!neg) v = -negateIf neg v := by
  cases neg <;> simp [negateIf]

/-- Settles O53: neither angle changes the fold, so the engine's triple is the same and the sign bits decide. -/
theorem sincos24HalfTurnAndMirror : Obligations.Sincos24HalfTurnAndMirror := by
  intro theta
  have hhalf : sinCosStart (theta + 0x800000#24) = sinCosStart theta := by
    rw [sinCosStart, sinCosFold_add_halfTurn, ← sinCosStart]
  have hmirror : sinCosStart (0xFFFFFF#24 - theta) = sinCosStart theta := by
    rw [sinCosStart, sinCosFold_mirror, ← sinCosStart]
  simp only [sincos24Response, respondSinCos, respond_r0, respond_r1, hhalf, hmirror, negCos_add_halfTurn,
    negSin_add_halfTurn, negCos_mirror, negSin_mirror, negateIf_not, and_self]

theorem lowAngle_eq_ofNat (a : Word) : lowAngle a = .ofNat 24 (a.toNat % 2 ^ 24) := by
  rw [lowAngle, BitVec.extractLsb', Nat.shiftRight_zero]
  exact BitVec.eq_of_toNat_eq (by simp)

/-- Full turns are bits 24 and up, which R140 ignores. -/
theorem lowAngle_add_turns (a k : Word) : lowAngle (a + k * 0x1000000#32) = lowAngle a := by
  rw [lowAngle_eq_ofNat, lowAngle_eq_ofNat, BitVec.toNat_add, BitVec.toNat_mul, BitVec.toNat_ofNat]
  congr 1
  omega

/-- Settles O54: the response is a function of a[23:0]. -/
theorem sincos24WrapsAtAFullTurn : Obligations.Sincos24WrapsAtAFullTurn := by
  refine ⟨fun c b a => ?decodes, fun c b a c' b' k => ?sameResponse⟩
  case decodes => rw [decode_toWord, decodeRequest_sincos24, lowAngle_eq_ofNat]
  case sameResponse => simp only [requestResponse, decode_toWord, decodeRequest_sincos24, lowAngle_add_turns]

end Sys2Proof.Machine
end

section
/-! Proofs of the exceptions family: the two causes of an error response and its format (R150, R151), and that CORE goes on (R153). -/

namespace Sys2Proof.Machine

/-- Settles O13: a step after a reset is the total function `after`. -/
theorem stepAfterResetAlwaysCompletes : Obligations.StepAfterResetAlwaysCompletes := by
  intro s hs
  exact ⟨s.after s.nextPins, step_eq_after hs, State.after_resetSeen _ hs, s.after_edgeCount _, s.after_drive _⟩

theorem requestResponse_op (r : Request) : (requestResponse r).op = r.op := by
  rw [requestResponse_eq, responseOf_op, decodeRequest_op]

/-- R150's two conditions on the fields of the request. -/
theorem requestResponse_err_iff (r : Request) :
    (requestResponse r).err = true ↔ 9 ≤ r.op.toNat ∨ (r.op = 0x3#4 ∧ (r.c.toNat = 0 ∨ 64 ≤ r.c.toNat)) := by
  rw [requestResponse_eq]
  by_cases hop : 9 ≤ r.op.toNat
  case pos => simp [responseOf_decodeRequest_of_reserved hop, reservedResponse, hop]
  case neg =>
    have hshift : ¬(1 ≤ r.c.toNat ∧ r.c.toNat ≤ 63) ↔ r.c.toNat = 0 ∨ 64 ≤ r.c.toNat := by omega
    rw [responseOf_err, Bool.not_eq_true', decodeRequest_illegal_iff (Nat.not_le.1 hop), hshift, or_iff_right hop]

theorem Response.fault_eq_reservedOp_iff (rsp : Response) :
    rsp.fault = some .reservedOp ↔ rsp.err = true ∧ 9 ≤ rsp.op.toNat := by
  unfold Response.fault
  split_ifs <;> simp [*]

/-- R151 tells the causes apart by op: RND's is none of the reserved codes. -/
theorem Response.fault_eq_rndShiftRange_iff (rsp : Response) :
    rsp.fault = some .rndShiftRange ↔ rsp.err = true ∧ rsp.op = 0x3#4 := by
  unfold Response.fault
  split_ifs with herr hreserved hrnd
  · have hop : rsp.op ≠ 0x3#4 := fun heq => absurd hreserved (by simp [heq])
    simp [hop]
  · simp [herr, hrnd]
  · simp [hrnd]
  · simp [herr]

/-- Settles O27: err by R150's conditions, and each cause by the op that the response echoes. -/
theorem errorResponsesHaveExactlyTwoCauses : Obligations.ErrorResponsesHaveExactlyTwoCauses := by
  intro r
  refine ⟨requestResponse_err_iff r, ?reservedOp, ?rndShiftRange, requestResponse_op r, rfl, rfl⟩
  case reservedOp =>
    rw [Response.fault_eq_reservedOp_iff, requestResponse_err_iff, requestResponse_op]
    exact and_iff_right_of_imp .inl
  case rndShiftRange =>
    rw [Response.fault_eq_rndShiftRange_iff, requestResponse_err_iff, requestResponse_op, and_comm]
    refine and_congr_right fun hop => ?_
    simp [hop]

/-- R151: the response of an illegal instruction is its op with err = 1 and nothing else. -/
theorem responseOf_of_illegal {i : Instr} (h : i.legal = false) : responseOf i = ⟨true, i.op, 0#32, 0#32, 0#32⟩ := by
  cases i with
  | rnd value bits =>
    have hrange : ¬(1 ≤ bits.toNat ∧ bits.toNat ≤ 63) :=
      fun hin => Bool.eq_false_iff.1 h ((rndShiftLegal_iff bits).2 hin)
    exact rndResponse_of_illegal value (by omega)
  | reserved9 | reservedAB | reservedCF => rfl
  | _ => cases h

/-- Settles O28: only an illegal instruction's response has err = 1, and that is the response of R151. -/
theorem errorResponseCarriesNoResult : Obligations.ErrorResponseCarriesNoResult := by
  intro r herr
  rw [requestResponse_eq] at herr ⊢
  rw [responseOf_err, Bool.not_eq_true'] at herr
  rw [responseOf_of_illegal herr, decodeRequest_op]

/-- Every promise is the response of a request that the lines issue. -/
theorem exists_accepted_of_mem_promised {v : Sighting} (ps : List Pins) : ∀ n : Nat, v ∈ promised n ps →
    ∃ p ∈ ps, p.accepts = true ∧ v.rsp = requestResponse p.req := by
  induction ps with
  | nil => intro n hv; cases hv
  | cons p ps ih =>
    intro n hv
    rcases List.mem_append.1 hv with hv | hv
    case inl =>
      split at hv
      case isTrue haccepts =>
        rw [List.mem_singleton.1 hv]
        exact ⟨p, List.mem_cons_self, (Bool.and_eq_true_iff.1 haccepts).1, rfl⟩
      case isFalse => cases hv
    case inr =>
      obtain ⟨q, hq, hrequest⟩ := ih (n + 1) hv
      exact ⟨q, List.mem_cons_of_mem p hq, hrequest⟩

theorem errorFree_nil : ErrorFree [] :=
  List.forall_mem_nil _

theorem errorFree_promised {ps : List Pins} (hps : LegalLines ps) (n : Nat) : ErrorFree (promised n ps) := by
  intro v hv
  obtain ⟨p, hp, haccepts, hrsp⟩ := exists_accepted_of_mem_promised ps n hv
  rw [hrsp, requestResponse, responseOf_err, hps p hp haccepts, Bool.not_true]

/-- After a reset, legal lines driven into empty slots show only what they promise. -/
theorem errorFree_observe_of_allEmpty {s : State} (hempty : AllEmpty s) (hs : s.resetSeen = true)
    (hlegal : LegalLines s.drive) : ErrorFree (observe s.drive.length s) := by
  rw [(hostSeesExactlyThePromisedResponses s s.drive hempty hs rfl).1]
  exact fun v hv => errorFree_promised hlegal _ v (List.mem_of_mem_filter hv)

/-- Before the first reset a host sees nothing, and only a RESET line takes the run on (R34, R174). -/
theorem observe_succ_before_reset {s : State} (n : Nat) (hs : s.resetSeen = false) :
    observe (n + 1) s = if s.nextPins.rst then observe n s.dropPins.clear else [] := by
  rw [observe, State.sighting_before_reset hs, List.nil_append]
  cases hr : s.nextPins.rst
  case true => simp [step_of_reset_line hr]
  case false => simp [step_before_reset hr hs]

/-- Settles O24: the lines before the first reset show nothing, and those after it only what they promise. -/
theorem legalRunsAreErrorFree : Obligations.LegalRunsAreErrorFree := by
  rintro s _ hempty rfl hlegal
  cases hs : s.resetSeen
  case true => exact errorFree_observe_of_allEmpty hempty hs hlegal
  case false =>
    cases hd : s.drive with
    | nil => exact errorFree_nil
    | cons p ps =>
      have hrest : s.dropPins.clear.drive = ps := by simp [hd]
      have hlegalRest : LegalLines s.dropPins.clear.drive :=
        fun q hq => hlegal q (by rw [hd]; exact List.mem_cons_of_mem p (hrest ▸ hq))
      rw [List.length_cons, observe_succ_before_reset _ hs, ← hrest]
      split
      · exact errorFree_observe_of_allEmpty (State.clear_slot _) (State.clear_resetSeen _) hlegalRest
      · exact errorFree_nil

end Sys2Proof.Machine
end

section
/-! Proofs of the reset and hazards family, one edge: what a driven line does (R171, R172, R176, R177). -/

namespace Sys2Proof.Machine

/-- A step takes the first driven line off and is the edge under it. -/
theorem step_eq_edge_of_cons {s : State} {p : Pins} {ps : List Pins} (hd : s.drive = p :: ps) :
    step s = edge p { s with drive := ps } := by
  have hdrop : s.dropPins = { s with drive := ps } := by simp [State.dropPins, hd]
  rw [step, State.nextPins_of_cons hd, hdrop]

/-- After a reset, a step under a driven line completes. -/
theorem step_eq_after_of_cons {s : State} {p : Pins} {ps : List Pins} (hd : s.drive = p :: ps) (hs : s.resetSeen = true) :
    step s = .next (s.after p) := by
  rw [step_eq_after hs, State.nextPins_of_cons hd]

/-- The accepting branch of an edge. -/
theorem edge_of_accepts {p : Pins} {s : State} (hs : s.resetSeen = true) (hr : p.rst = false) (hv : p.inValid = true) :
    edge p s = exec (decode p.req.toWord) s := by
  simp [edge, hs, hr, hv]

/-- Settles O9: the step is the edge under the driven line, in its accepting branch. -/
theorem stepRunsTheDecodedInstruction : Obligations.StepRunsTheDecodedInstruction := by
  intro s p ps hd hs hr hv
  rw [step_eq_edge_of_cons hd]
  exact edge_of_accepts hs hr hv

/-- R176: with `in_valid` = 0 no branch of an edge reads the request fields. -/
theorem edge_of_not_valid (rst : Bool) (r r' : Request) (s : State) :
    edge ⟨rst, false, r⟩ s = edge ⟨rst, false, r'⟩ s := by
  cases rst <;> simp [edge]

/-- Settles O16: each step is the edge under its line, and the two edges agree. -/
theorem idleEdgeIgnoresRequestFields : Obligations.IdleEdgeIgnoresRequestFields := by
  intro s r r' rst ps
  rw [step_eq_edge_of_cons rfl, step_eq_edge_of_cons rfl]
  exact edge_of_not_valid rst r r' _

/-- Settles O10: the step is `after`, whose slots and other fields are R177's. -/
theorem stepFollowsTheSlotRelation : Obligations.StepFollowsTheSlotRelation := by
  intro s p ps hd hs
  refine ⟨s.after p, step_eq_after_of_cons hd hs, ?reset, ?noReset, State.after_resetSeen p hs, ?drive, s.after_edgeCount p⟩
  case reset => exact State.after_slot_of_reset
  case noReset => exact fun hr => ⟨State.after_slot_succ hr, State.after_slot_zero hr⟩
  case drive => rw [State.after_drive, hd, List.tail_cons]

/-- A request is in slot[0] after an edge exactly when the edge accepted one (R172). -/
theorem State.after_slot_zero_full_iff (s : State) (p : Pins) :
    (∃ rsp : Response, (s.after p).slots[0]'Config.latency_pos = .full rsp) ↔ p.inValid = true ∧ p.rst = false := by
  cases hr : p.rst
  case true => simp [State.after_slot_of_reset hr]
  case false => cases hv : p.inValid <;> simp [State.after_slot_zero hr, hv]

/-- Settles O15: slot[0] is full after an accepting edge only, and every edge with `rst` = 1 is `clear`. -/
theorem requestEntersExactlyWhenAccepted : Obligations.RequestEntersExactlyWhenAccepted := by
  refine ⟨fun p => rfl, ?enters, ?ignored⟩
  case enters =>
    intro s p ps hd hs
    exact ⟨s.after p, step_eq_after_of_cons hd hs, s.after_slot_zero_full_iff p⟩
  case ignored =>
    intro s p p' ps hr hr'
    rw [step_eq_edge_of_cons rfl, step_eq_edge_of_cons rfl, edge_of_reset hr, edge_of_reset hr']

end Sys2Proof.Machine
end

section
/-! Proofs of the reset and hazards family, runs: what reset edges leave, the latency of a request, and back-to-back requests (R171,
R178, R179). -/

namespace Sys2Proof.Machine

/-- Holding `rst` = 1 keeps every slot `Empty` and takes the lines off (R171). -/
theorem run_reset_lines_of_allEmpty (ps qs : List Pins) : ∀ s : State, (∀ p ∈ ps, p.rst = true) →
    s.drive = ps ++ qs → s.resetSeen = true → AllEmpty s →
      ∃ t : State, Host.Core.run core ps.length s = .next t ∧ AllEmpty t ∧ t.resetSeen = true ∧ t.drive = qs := by
  induction ps with
  | nil => intro s _ hd hs hempty; exact ⟨s, rfl, hempty, hs, hd⟩
  | cons p ps ih =>
    intro s hps hd hs _
    obtain ⟨hr, hps⟩ := List.forall_mem_cons.1 hps
    obtain ⟨t, hrun, ht⟩ := ih (s.after p) hps (by simp [hd]) (State.after_resetSeen p hs) (State.after_slot_of_reset hr)
    exact ⟨t, (run_succ ps.length (step_eq_after_of_cons hd hs)).trans hrun, ht⟩

/-- One or more reset edges empty every slot, whatever the slots held and whether or not a reset was seen before (R171, R174). -/
theorem run_reset_lines {s : State} {ps qs : List Pins} (hne : ps ≠ []) (hps : ∀ p ∈ ps, p.rst = true)
    (hd : s.drive = ps ++ qs) :
    ∃ t : State, Host.Core.run core ps.length s = .next t ∧ AllEmpty t ∧ t.resetSeen = true ∧ t.drive = qs := by
  obtain ⟨p, ps, rfl⟩ := List.exists_cons_of_ne_nil hne
  obtain ⟨hr, hps⟩ := List.forall_mem_cons.1 hps
  have hstep : step s = .next s.dropPins.clear := step_of_reset_line (by rwa [State.nextPins_of_cons hd])
  obtain ⟨t, hrun, ht⟩ := run_reset_lines_of_allEmpty ps qs s.dropPins.clear hps (by simp [hd]) rfl (State.clear_slot _)
  exact ⟨t, (run_succ ps.length hstep).trans hrun, ht⟩

/-- Settles O11: the reset edges leave empty slots, and from empty slots only what the lines promise is seen. -/
theorem resetEdgesEmptyEverySlot : Obligations.ResetEdgesEmptyEverySlot := by
  intro s ps qs hne hps
  obtain ⟨t, hrun, hempty, hs, hd⟩ := run_reset_lines (s := { s with drive := ps ++ qs }) hne hps rfl
  exact ⟨t, hrun, hempty, State.outValid_of_empty (lastSlot_of_allEmpty hempty), hs, hd,
    (hostSeesExactlyThePromisedResponses t qs hempty hs hd).1⟩

/-- After `j` edges the host is about to sample what was due `j` edges after the next one. -/
theorem run_sighting_eq_due (j : Nat) : ∀ (s : State) (ps : List Pins), j < Config.latency → j ≤ ps.length →
    s.resetSeen = true → s.drive = ps →
      ∃ t : State, Host.Core.run core j s = .next t ∧ t.resetSeen = true ∧ t.sighting = s.due ps j := by
  induction j with
  | zero => intro s ps _ _ hs _; exact ⟨s, rfl, hs, (State.due_zero ps hs).symm⟩
  | succ j ih =>
    intro s ps hj hlen hs hd
    obtain ⟨p, ps, rfl⟩ := List.exists_cons_of_length_pos (Nat.zero_lt_of_lt hlen)
    obtain ⟨t, hrun, ht, hsighting⟩ := ih (s.after p) ps (by omega) (Nat.le_of_succ_le_succ hlen)
      (State.after_resetSeen p hs) (by simp [hd])
    exact ⟨t, (run_succ j (step_eq_after_of_cons hd hs)).trans hrun, ht, hsighting.trans (State.due_after p ps hj)⟩

theorem lastSlot_of_sighting_eq_nil {s : State} (hs : s.resetSeen = true) (h : s.sighting = []) : s.lastSlot = .empty := by
  cases hlast : s.lastSlot with
  | empty => rfl
  | full rsp => simp [State.sighting_of_full hs hlast] at h

/-- R178, the lost case: a reset in flight leaves the last slot `Empty` LATENCY edges later. -/
theorem run_latency_of_reset_in_flight {s : State} {p : Pins} {ps : List Pins} (hd : s.drive = p :: ps)
    (hlen : Config.latency - 1 ≤ ps.length) (hs : s.resetSeen = true) (hps : noResetInFlight ps = false) :
    ∃ t : State, Host.Core.run core Config.latency s = .next t ∧ t.lastSlot = .empty := by
  obtain ⟨t, hrun, ht, hsighting⟩ := run_sighting_eq_due (Config.latency - 1) (s.after p) ps (by decide) hlen
    (State.after_resetSeen p hs) (by simp [hd])
  have hlost : (s.after p).due ps (Config.latency - 1) = [] := by
    rw [State.due_after_entering, hps, Bool.and_false, if_neg Bool.false_ne_true]
  exact ⟨t, (run_succ (Config.latency - 1) (step_eq_after_of_cons hd hs)).trans hrun,
    lastSlot_of_sighting_eq_nil ht (hsighting.trans hlost)⟩

/-- Settles O18: the last slot after LATENCY edges holds the request's response, or is empty if a reset came in flight. -/
theorem responseAppearsAfterLatency : Obligations.ResponseAppearsAfterLatency := by
  intro s p ps hd hlen hs hp
  cases hps : noResetInFlight ps
  case true =>
    obtain ⟨t, hrun, hlast⟩ := run_latency_of_accepts hd hlen hs hp hps
    exact ⟨t, hrun, fun _ => ⟨t.outValid_eq_true_iff.2 ⟨_, hlast⟩, State.outPorts_of_full hlast⟩, nofun⟩
  case false =>
    obtain ⟨t, hrun, hlast⟩ := run_latency_of_reset_in_flight hd hlen hs hps
    exact ⟨t, hrun, nofun, fun _ => State.outValid_of_empty hlast⟩

theorem noResetInFlight_of_forall {ps : List Pins} (h : ∀ p ∈ ps, p.rst = false) : noResetInFlight ps = true := by
  refine List.all_eq_true.2 fun p hp => ?_
  rw [h p (List.mem_of_mem_take hp), Bool.not_false]

/-- The lines of requests issued back to back, and the IDLE edges that end the run (D27). -/
def backToBack (rs : List Request) (m : Nat) : List Pins :=
  rs.map .request ++ List.replicate m .idle

theorem rst_of_mem_backToBack {rs : List Request} {m : Nat} {p : Pins} (hp : p ∈ backToBack rs m) : p.rst = false := by
  rcases List.mem_append.1 hp with hp | hp
  · obtain ⟨r, -, rfl⟩ := List.mem_map.1 hp
    rfl
  · rw [List.eq_of_mem_replicate hp]
    rfl

theorem promised_replicate_idle (m : Nat) : ∀ n : Nat, promised n (List.replicate m .idle) = [] := by
  induction m with
  | zero => intro n; rfl
  | succ m ih => intro n; exact ih (n + 1)

/-- Requests issued back to back are each promised a response, one an edge (R179). -/
theorem promised_backToBack (m : Nat) (rs : List Request) : ∀ n : Nat,
    promised n (backToBack rs m) = rs.mapIdx fun k r => ⟨k + n + Config.latency, requestResponse r⟩ := by
  induction rs with
  | nil => exact promised_replicate_idle m
  | cons r rs ih =>
    intro n
    have hquiet : noResetInFlight (backToBack rs m) = true := noResetInFlight_of_forall fun _ => rst_of_mem_backToBack
    calc promised n (.request r :: backToBack rs m)
        = ⟨n + Config.latency, requestResponse r⟩ :: promised (n + 1) (backToBack rs m) := by
          rw [promised, hquiet]; rfl
      _ = (r :: rs).mapIdx fun k r => ⟨k + n + Config.latency, requestResponse r⟩ := by
          rw [ih, List.mapIdx_cons, Nat.zero_add]
          simp only [Nat.add_assoc, Nat.add_comm 1 n]

/-- Settles O20: from empty slots the host sees what is promised, and every promise of the list is due within the run. -/
theorem backToBackRequestsAllAnswer : Obligations.BackToBackRequestsAllAnswer := by
  intro rs
  have hsees := (hostSeesExactlyThePromisedResponses { State.reset with drive := backToBack rs Config.latency } _
    (allEmpty_reset _) rfl rfl).1
  have hlen : (backToBack rs Config.latency).length = rs.length + Config.latency := by simp [backToBack]
  rw [hlen] at hsees
  refine hsees.trans ?_
  rw [promised_backToBack]
  refine List.filter_eq_self.2 fun v hv => decide_eq_true ?_
  obtain ⟨k, hk, rfl⟩ := List.mem_mapIdx.1 hv
  simp only [State.reset_edgeCount]
  omega

end Sys2Proof.Machine
end
